-- ==== Sys2Proof/Word.lean ====
section
/-! DEFINITION. Word.lean: the fixed widths of the block's bit quantities (00_scope.md R10, R11). -/

namespace Sys2Proof

/-- One byte of a frame: bit 7 is the most significant bit and the first on the wire (R11, R54). -/
abbrev Byte := BitVec 8

/-- A bus address, `ADDR_W` = 7 bits (R10, R22, decision D6; notes/assumptions/4.md). -/
abbrev Addr := BitVec 7

/-- An output value operand or a decoded value, `VALUE_W` = 16 bits (R10, decision D4). -/
abbrev Value := BitVec 16

/-- A reference selector, 2 bits (R23, R81). -/
abbrev Ref := BitVec 2

end Sys2Proof
end

