-- ==== Sys2Proof/Config.lean ====
section
/-! DEFINITION. Config.lean: what an instance of the block is built with (R10, R20, R22, R85) and the free
values, constants with no body that stand for whatever the spec leaves unspecified. -/

namespace Sys2Proof

/-- The device variant, a closed enumeration of three (R2, R20): there is no fourth value. -/
inductive Variant where
  | v8
  | v10
  | v12
deriving DecidableEq, Repr, Inhabited

/-- The three operations of the sequencer, the values of `REQ.OP` (R23). -/
inductive Op where
  | statusRead
  | execute
  | condPersist
deriving DecidableEq, Repr, Inhabited

/-- What is fixed at construction. `variant` and `addr` are the registers `CFG.VARIANT` and `CFG.ADDR`
(R20, R22); `cmdWriteAll` and `clockW` are the open parameters `CMD_WRITE_ALL` and `CLOCK_W`
(R10, R85, decisions D5 and D7). No operation writes any of them. -/
structure Cfg where
  variant     : Variant
  addr        : Addr
  cmdWriteAll : BitVec 3
  clockW      : Nat
deriving DecidableEq, Repr

namespace Config

/-- Free value: a clock sample that no listed sample supplies (R53: each sample is a draw). -/
opaque freeClock : Nat → Nat

/-- Free value: a one-bit quantity the spec leaves unspecified. -/
opaque freeBit : Nat → Bool

/-- Free value: a reference selector the spec leaves unspecified. -/
opaque freeRef : Nat → Ref

/-- Free value: a byte the spec leaves unspecified. -/
opaque freeByte : Nat → Byte

/-- Free value: a 16-bit value the spec leaves unspecified. -/
opaque freeValue : Nat → Value

/-- Free value: the operation latch after a reset in mid-run (R34: unspecified). -/
opaque freeOp : Nat → Op

end Config

end Sys2Proof
end

