-- ==== Sys2Proof/Machine/Params.lean ====
section
/-! DEFINITION. Machine/Params.lean: the per-variant constant table (R10, R21) and the fixed literals. -/

namespace Sys2Proof

/-- `WIDTH(v)`: the number of value bits (R21). -/
def width : Variant → Nat
  | .v8 => 8
  | .v10 => 10
  | .v12 => 12

/-- `VMAX(v) = 2^WIDTH(v) - 1`: the largest in-range value (R10, R21). -/
def vmax : Variant → Nat
  | .v8 => 255
  | .v10 => 1023
  | .v12 => 4095

/-- `STATUS_LEN(v)`: the length of a status frame in bytes (R21). -/
def statusLen : Variant → Nat
  | .v8 => 4
  | .v10 => 6
  | .v12 => 6

/-- `CMD_LEN(v)`: the length of a command frame in bytes (R21). -/
def cmdLen : Variant → Nat
  | .v8 => 2
  | .v10 => 3
  | .v12 => 3

/-- `TIMEOUT_MS` (R10). -/
def timeoutMs : Nat := 100

/-- `CMD_WRITE_VOLATILE`, the selector of "write volatile memory" (R85). -/
def cmdWriteVolatile : BitVec 3 := 0b010#3

/-- The default `CMD_WRITE_ALL` the spec offers (R85, decision D5; PRESUMED, notes/assumptions/3.md). -/
def cmdWriteAllDefault : BitVec 3 := 0b011#3

/-- The admitted constructions: `CMD_WRITE_ALL` differs from `0b010` (R85) and `CLOCK_W >= 7` (R10). -/
def Cfg.wf (c : Cfg) : Bool :=
  c.cmdWriteAll != cmdWriteVolatile && decide (7 ≤ c.clockW)

/-- The instance that stands in `State.reset`: the spec supplies the variant and the address from outside
(R34), so these two are a DESIGN CHOICE (notes/assumptions/1.md); the others are the spec's defaults. -/
def Cfg.default : Cfg :=
  { variant := .v8, addr := 0#7, cmdWriteAll := cmdWriteAllDefault, clockW := 32 }

end Sys2Proof
end

