-- ==== Sys2Proof/Syntax.lean ====
section
/-! DEFINITION. Syntax.lean: one constructor per row of spec/opcode_table.json (R91): six command frames the
block sends, two status frames it receives, three sequenced operations, five pure operations. -/

namespace Sys2Proof

/-- The sixteen operations and wire frames of the opcode table (R91). The value of a command frame is kept
as a 16-bit number; WellFormed bounds it by the variant's maximum. -/
inductive Instr where
  /-- WRVOL.8, write-volatile-memory frame of the 8-bit variant (R81, R82). -/
  | wrvol8 (ref : Ref) (gain : Bool) (value : Value)
  /-- WRVOL.10 (R81, R83). -/
  | wrvol10 (ref : Ref) (gain : Bool) (value : Value)
  /-- WRVOL.12 (R81, R84). -/
  | wrvol12 (ref : Ref) (gain : Bool) (value : Value)
  /-- WRALL.8, write-all-memory frame of the 8-bit variant (R81, R82, R85). -/
  | wrall8 (ref : Ref) (gain : Bool) (value : Value)
  /-- WRALL.10 (R81, R83, R85). -/
  | wrall10 (ref : Ref) (gain : Bool) (value : Value)
  /-- WRALL.12 (R81, R84, R85). -/
  | wrall12 (ref : Ref) (gain : Bool) (value : Value)
  /-- STATUS.N, the narrow status frame (R86). -/
  | statusN (s0 s1 s2 s3 : Byte)
  /-- STATUS.W, the wide status frame (R87). -/
  | statusW (s0 s1 s2 s3 s4 s5 : Byte)
  /-- STATUS_READ (R131). -/
  | statusRead
  /-- EXECUTE (R132 to R137). -/
  | execute (persist : Bool) (ref : Ref) (gainIn : Byte) (value : Value)
  /-- COND_PERSIST (R138, R139). -/
  | condPersist (ref : Ref) (gainIn : Byte) (value : Value)
  /-- ENCODE.8 (R121). -/
  | encode8 (persist : Bool) (ref : Ref) (gainIn : Byte) (value : Value)
  /-- ENCODE.10 (R122). -/
  | encode10 (persist : Bool) (ref : Ref) (gainIn : Byte) (value : Value)
  /-- ENCODE.12 (R123). -/
  | encode12 (persist : Bool) (ref : Ref) (gainIn : Byte) (value : Value)
  /-- DECODE.N (R110). -/
  | decodeN (s0 s1 s2 s3 : Byte)
  /-- DECODE.W (R111). -/
  | decodeW (s0 s1 s2 s3 s4 s5 : Byte)
deriving DecidableEq, Repr

end Sys2Proof
end

