-- ==== Sys2Proof/WellFormed.lean ====
section
/-! DEFINITION. WellFormed.lean: which terms of Instr a frame or port word can carry. A command frame of a
variant has exactly WIDTH value bits (R82 to R84), so its value is at most VMAX. Every operand of the host
operations is admitted: an out-of-range value there is legal and truncated (R92, R124). -/

namespace Sys2Proof

/-- The check on each constructor. -/
def Instr.wf : Instr → Bool
  | .wrvol8 _ _ value => decide (value.toNat ≤ vmax .v8)
  | .wrvol10 _ _ value => decide (value.toNat ≤ vmax .v10)
  | .wrvol12 _ _ value => decide (value.toNat ≤ vmax .v12)
  | .wrall8 _ _ value => decide (value.toNat ≤ vmax .v8)
  | .wrall10 _ _ value => decide (value.toNat ≤ vmax .v10)
  | .wrall12 _ _ value => decide (value.toNat ≤ vmax .v12)
  | .statusN _ _ _ _ => true
  | .statusW _ _ _ _ _ _ => true
  | .statusRead => true
  | .execute _ _ _ _ => true
  | .condPersist _ _ _ => true
  | .encode8 _ _ _ _ => true
  | .encode10 _ _ _ _ => true
  | .encode12 _ _ _ _ => true
  | .decodeN _ _ _ _ => true
  | .decodeW _ _ _ _ _ _ => true

end Sys2Proof
end

