-- ==== Sys2Proof/Decode.lean ====
section
/-! DEFINITION. Decode.lean: from the bytes on a port to an instruction, total on any bytes and rejecting by
name, and the encoder back. Nothing inside a frame tells which row it is (R80, R93): the port it stands on and
CFG.VARIANT select the row (R91), and on the command wire the selector in byte 0 does the rest. -/

namespace Sys2Proof

/-- Where a word or a frame stands (R91). -/
inductive Port where
  /-- the command frame on the transport's write side (R80, CMD8, CMD10, CMD12) -/
  | command
  /-- the status frame on the transport's read side (R80, STATN, STATW) -/
  | status
  /-- the host request word REQW (R89) -/
  | request
  /-- the pure encoder's port enc_req (R90) -/
  | encodePort
  /-- the pure decoder's port dec_frame (R90) -/
  | decodePort
deriving DecidableEq, Repr

/-- Why some bytes are no instruction of a port. -/
inductive Reject where
  /-- the number of bytes is not the port's (R93, R113; U1) -/
  | frameLength
  /-- request word with op = 0b00: not a request (R89, R130) -/
  | noOperation
  /-- command selector that is neither write-volatile nor write-all (R85, R92) -/
  | selector
  /-- command byte 0 with bits 1:0 not zero: the block never sends it (R81, R92) -/
  | reservedBits
  /-- command byte 2 with a pad bit set: the block never sends it (R83, R84, R92) -/
  | padBits
  /-- a port word with a bit set above the port's width (R90: enc_req has 30 bits) -/
  | portWidth
deriving DecidableEq, Repr

/-- The four bytes of a 32-bit word, most significant first. -/
def bytes32 (w : BitVec 32) : List Byte :=
  [w.extractLsb' 24 8, w.extractLsb' 16 8, w.extractLsb' 8 8, w.extractLsb' 0 8]

/-- The six bytes of a 48-bit word, most significant first (R90: byte 0 in bits 47:40). -/
def bytes48 (w : BitVec 48) : List Byte :=
  [w.extractLsb' 40 8, w.extractLsb' 32 8, w.extractLsb' 24 8,
   w.extractLsb' 16 8, w.extractLsb' 8 8, w.extractLsb' 0 8]

/-- The number whose big-endian bytes these are. -/
def natOfBytes (bs : List Byte) : Nat :=
  bs.foldl (fun n b => n * 256 + b.toNat) 0

/-- Command byte 0: is it a persisting frame? (R81, R85) -/
def selectorPersists (c : Cfg) (b0 : Byte) : Except Reject Bool :=
  if b0.extractLsb' 0 2 ≠ 0#2 then .error .reservedBits
  else if b0.extractLsb' 5 3 = cmdWriteVolatile then .ok false
  else if b0.extractLsb' 5 3 = c.cmdWriteAll then .ok true
  else .error .selector

/-- The reference selector of command byte 0 (R81, bits 4:3). -/
def frameRef (b0 : Byte) : Ref := b0.extractLsb' 3 2

/-- The gain bit of command byte 0 (R81, bit 2). -/
def frameGain (b0 : Byte) : Bool := b0.getLsbD 2

/-- CMD8 (R82): the value is byte 1. -/
def decodeCmd8 (c : Cfg) (b0 b1 : Byte) : Except Reject Instr :=
  match selectorPersists c b0 with
  | .error r => .error r
  | .ok false => .ok (.wrvol8 (frameRef b0) (frameGain b0) (b1.setWidth 16))
  | .ok true => .ok (.wrall8 (frameRef b0) (frameGain b0) (b1.setWidth 16))

/-- CMD10 (R83): value[9:2] is byte 1, value[1:0] the top of byte 2, the rest of byte 2 zero. -/
def decodeCmd10 (c : Cfg) (b0 b1 b2 : Byte) : Except Reject Instr :=
  match selectorPersists c b0 with
  | .error r => .error r
  | .ok p =>
    if b2.extractLsb' 0 6 ≠ 0#6 then .error .padBits
    else
      let value : Value := BitVec.setWidth 16 (b1 ++ b2.extractLsb' 6 2)
      match p with
      | false => .ok (.wrvol10 (frameRef b0) (frameGain b0) value)
      | true => .ok (.wrall10 (frameRef b0) (frameGain b0) value)

/-- CMD12 (R84): value[11:4] is byte 1, value[3:0] the top of byte 2, the rest of byte 2 zero. -/
def decodeCmd12 (c : Cfg) (b0 b1 b2 : Byte) : Except Reject Instr :=
  match selectorPersists c b0 with
  | .error r => .error r
  | .ok p =>
    if b2.extractLsb' 0 4 ≠ 0#4 then .error .padBits
    else
      let value : Value := BitVec.setWidth 16 (b1 ++ b2.extractLsb' 4 4)
      match p with
      | false => .ok (.wrvol12 (frameRef b0) (frameGain b0) value)
      | true => .ok (.wrall12 (frameRef b0) (frameGain b0) value)

/-- A command frame on the wire: the variant tells its format (R80). -/
def decodeCommand (c : Cfg) (bs : List Byte) : Except Reject Instr :=
  match c.variant, bs with
  | .v8, [b0, b1] => decodeCmd8 c b0 b1
  | .v10, [b0, b1, b2] => decodeCmd10 c b0 b1 b2
  | .v12, [b0, b1, b2] => decodeCmd12 c b0 b1 b2
  | _, _ => .error .frameLength

/-- A status frame (R86, R87): no fixed bits, the variant tells the length. -/
def decodeStatus (c : Cfg) (bs : List Byte) : Except Reject Instr :=
  match c.variant, bs with
  | .v8, [s0, s1, s2, s3] => .ok (.statusN s0 s1 s2 s3)
  | .v10, [s0, s1, s2, s3, s4, s5] => .ok (.statusW s0 s1 s2 s3 s4 s5)
  | .v12, [s0, s1, s2, s3, s4, s5] => .ok (.statusW s0 s1 s2 s3 s4 s5)
  | _, _ => .error .frameLength

/-- The request word (R89): bits 26:24 are ignored, so is `persist` of COND_PERSIST, and so is every operand
bit of STATUS_READ (R92). -/
def decodeRequest (w : BitVec 32) : Except Reject Instr :=
  if w.extractLsb' 30 2 = 0b01#2 then .ok .statusRead
  else if w.extractLsb' 30 2 = 0b10#2 then
    .ok (.execute (w.getLsbD 29) (w.extractLsb' 27 2) (w.extractLsb' 16 8) (w.extractLsb' 0 16))
  else if w.extractLsb' 30 2 = 0b11#2 then
    .ok (.condPersist (w.extractLsb' 27 2) (w.extractLsb' 16 8) (w.extractLsb' 0 16))
  else .error .noOperation

/-- The encoder's operand word enc_req, laid out as bits 29:0 of REQW (R90). -/
def decodeEncodePort (c : Cfg) (w : BitVec 32) : Except Reject Instr :=
  if w.extractLsb' 30 2 ≠ 0#2 then .error .portWidth
  else
    let p := w.getLsbD 29
    let ref : Ref := w.extractLsb' 27 2
    let gainIn : Byte := w.extractLsb' 16 8
    let value : Value := w.extractLsb' 0 16
    match c.variant with
    | .v8 => .ok (.encode8 p ref gainIn value)
    | .v10 => .ok (.encode10 p ref gainIn value)
    | .v12 => .ok (.encode12 p ref gainIn value)

/-- The decoder's operand dec_frame, byte 0 first; for V8 the last two bytes are ignored (R90). -/
def decodeDecodePort (c : Cfg) (s0 s1 s2 s3 s4 s5 : Byte) : Except Reject Instr :=
  match c.variant with
  | .v8 => .ok (.decodeN s0 s1 s2 s3)
  | .v10 => .ok (.decodeW s0 s1 s2 s3 s4 s5)
  | .v12 => .ok (.decodeW s0 s1 s2 s3 s4 s5)

/-- The decoder: the instruction that some bytes on a port are, for an instance built with `c` (R91). -/
def decode (c : Cfg) (p : Port) (bs : List Byte) : Except Reject Instr :=
  match p with
  | .command => decodeCommand c bs
  | .status => decodeStatus c bs
  | .request =>
    match bs with
    | [b0, b1, b2, b3] => decodeRequest (b0 ++ b1 ++ b2 ++ b3)
    | _ => .error .frameLength
  | .encodePort =>
    match bs with
    | [b0, b1, b2, b3] => decodeEncodePort c (b0 ++ b1 ++ b2 ++ b3)
    | _ => .error .frameLength
  | .decodePort =>
    match bs with
    | [s0, s1, s2, s3, s4, s5] => decodeDecodePort c s0 s1 s2 s3 s4 s5
    | _ => .error .frameLength

/-! ## The encoder, written from the format tables (R81 to R90) -/

/-- Command byte 0 as the table of R81 draws it: CMD, REF, GAIN, RSV = 00. -/
def headerByte (cmd : BitVec 3) (ref : Ref) (gain : Bool) : Byte :=
  cmd ++ ref ++ BitVec.ofBool gain ++ 0b00#2

/-- The value bytes of CMD8 (R82). -/
def valueBytes8 (value : Value) : List Byte := [value.extractLsb' 0 8]

/-- The value bytes of CMD10 (R83). -/
def valueBytes10 (value : Value) : List Byte :=
  [value.extractLsb' 2 8, value.extractLsb' 0 2 ++ 0b000000#6]

/-- The value bytes of CMD12 (R84). -/
def valueBytes12 (value : Value) : List Byte :=
  [value.extractLsb' 4 8, value.extractLsb' 0 4 ++ 0b0000#4]

/-- Bits 29:0 of REQW and enc_req: persist, ref, three zero bits, gain_in, value (R89). -/
def operandBits (persist : Bool) (ref : Ref) (gainIn : Byte) (value : Value) : BitVec 30 :=
  BitVec.ofBool persist ++ ref ++ 0b000#3 ++ gainIn ++ value

/-- The bytes of an instruction on its port; ignored bits are written as zero (R89). -/
def encode (c : Cfg) : Instr → List Byte
  | .wrvol8 ref gain value => headerByte cmdWriteVolatile ref gain :: valueBytes8 value
  | .wrvol10 ref gain value => headerByte cmdWriteVolatile ref gain :: valueBytes10 value
  | .wrvol12 ref gain value => headerByte cmdWriteVolatile ref gain :: valueBytes12 value
  | .wrall8 ref gain value => headerByte c.cmdWriteAll ref gain :: valueBytes8 value
  | .wrall10 ref gain value => headerByte c.cmdWriteAll ref gain :: valueBytes10 value
  | .wrall12 ref gain value => headerByte c.cmdWriteAll ref gain :: valueBytes12 value
  | .statusN s0 s1 s2 s3 => [s0, s1, s2, s3]
  | .statusW s0 s1 s2 s3 s4 s5 => [s0, s1, s2, s3, s4, s5]
  | .statusRead => bytes32 (0b01#2 ++ 0#30)
  | .execute persist ref gainIn value => bytes32 (0b10#2 ++ operandBits persist ref gainIn value)
  | .condPersist ref gainIn value => bytes32 (0b11#2 ++ operandBits false ref gainIn value)
  | .encode8 persist ref gainIn value => bytes32 (0b00#2 ++ operandBits persist ref gainIn value)
  | .encode10 persist ref gainIn value => bytes32 (0b00#2 ++ operandBits persist ref gainIn value)
  | .encode12 persist ref gainIn value => bytes32 (0b00#2 ++ operandBits persist ref gainIn value)
  | .decodeN s0 s1 s2 s3 => [s0, s1, s2, s3, 0#8, 0#8]
  | .decodeW s0 s1 s2 s3 s4 s5 => [s0, s1, s2, s3, s4, s5]

/-- The port an instruction stands on (R91). -/
def Instr.port : Instr → Port
  | .wrvol8 _ _ _ => .command
  | .wrvol10 _ _ _ => .command
  | .wrvol12 _ _ _ => .command
  | .wrall8 _ _ _ => .command
  | .wrall10 _ _ _ => .command
  | .wrall12 _ _ _ => .command
  | .statusN _ _ _ _ => .status
  | .statusW _ _ _ _ _ _ => .status
  | .statusRead => .request
  | .execute _ _ _ _ => .request
  | .condPersist _ _ _ => .request
  | .encode8 _ _ _ _ => .encodePort
  | .encode10 _ _ _ _ => .encodePort
  | .encode12 _ _ _ _ => .encodePort
  | .decodeN _ _ _ _ => .decodePort
  | .decodeW _ _ _ _ _ _ => .decodePort

/-- Whether an instance of variant `v` has the instruction (R91, R94: the suffix must agree with
CFG.VARIANT; the sequenced operations have no suffix). -/
def Instr.fits (v : Variant) : Instr → Bool
  | .wrvol8 _ _ _ => v == .v8
  | .wrvol10 _ _ _ => v == .v10
  | .wrvol12 _ _ _ => v == .v12
  | .wrall8 _ _ _ => v == .v8
  | .wrall10 _ _ _ => v == .v10
  | .wrall12 _ _ _ => v == .v12
  | .statusN _ _ _ _ => v == .v8
  | .statusW _ _ _ _ _ _ => v != .v8
  | .statusRead => true
  | .execute _ _ _ _ => true
  | .condPersist _ _ _ => true
  | .encode8 _ _ _ _ => v == .v8
  | .encode10 _ _ _ _ => v == .v10
  | .encode12 _ _ _ _ => v == .v12
  | .decodeN _ _ _ _ => v == .v8
  | .decodeW _ _ _ _ _ _ => v != .v8

/-! ## The opcode table's rows as numbers -/

/-- The bytes of a row of the opcode table: the row read as one number, bit 0 its least significant bit, its
leftmost character bit 7 of byte 0 (R12). -/
def tableBytes (nbits w : Nat) : List Byte :=
  match (nbits + 7) / 8 with
  | 2 => [BitVec.ofNat 8 (w / 256), BitVec.ofNat 8 w]
  | 3 => [BitVec.ofNat 8 (w / 65536), BitVec.ofNat 8 (w / 256), BitVec.ofNat 8 w]
  | 4 => bytes32 (BitVec.ofNat 32 w)
  | 6 => bytes48 (BitVec.ofNat 48 w)
  | _ => []

/-- The port and variant a bare number of the table is read with. A number does not say them, and several
rows share their words (WRVOL.10 and WRVOL.12; ENCODE.8, ENCODE.10, ENCODE.12 and STATUS.N; STATUS.W, DECODE.N
and DECODE.W), so ONE reading is fixed here (DESIGN CHOICE, notes/assumptions/12.md). -/
def tableSource (nbits w : Nat) : Option (Port × Variant) :=
  match (nbits + 7) / 8 with
  | 2 => some (.command, .v8)
  | 3 => if w % 64 = 0 then some (.command, .v10) else some (.command, .v12)
  | 4 =>
    if w / 1073741824 % 4 ≠ 0 then some (.request, .v8)
    else if w / 16777216 % 8 = 0 then some (.encodePort, .v8)
    else some (.status, .v8)
  | 6 => if w % 65536 = 0 then some (.decodePort, .v8) else some (.status, .v12)
  | _ => none

/-- The instruction the decoder reads from an instruction whose bits, numbered as the opcode table numbers
them, are `w`. -/
def decodeTableWord (nbits w : Nat) : Option Instr :=
  match tableSource nbits w with
  | none => none
  | some (p, v) => (decode { Cfg.default with variant := v } p (tableBytes nbits w)).toOption

end Sys2Proof
end

