-- ==== Sys2Proof/Machine/State.lean ====
section
/-! DEFINITION. Machine/State.lean: everything the spec gives the block (10_state.md), the interface events
still to come and those already seen, and the device behind the bus as far as the spec describes it. -/

namespace Sys2Proof.Machine

/-- `SEQ`, the sequencer state register: nine values, encoding not observable (R26). -/
inductive Seq where
  | idle
  | srRead
  | cpRead
  | wrPend
  | transactionSent
  | pollRead
  | pollingReady
  | pollingTimedOut
  | done
deriving DecidableEq, Repr

/-- The operand latches `REQ.OP`, `REQ.REF`, `REQ.GAIN`, `REQ.VALUE`, `REQ.PERSIST` (R23). -/
structure Request where
  op      : Op
  ref     : Ref
  gain    : Bool
  value   : Value
  persist : Bool
deriving DecidableEq, Repr

/-- DeviceStatus, the decoded record of 48 bits (R29). The two ConfigStatus bytes are kept whole (R28). -/
structure DeviceStatus where
  vcfg  : Byte
  vval  : Value
  nvcfg : Byte
  nvval : Value
deriving DecidableEq, Repr

/-- The result registers `RES.OK` and `RES.STATUS` (R27). -/
structure Result where
  ok     : Bool
  status : DeviceStatus
deriving DecidableEq, Repr

/-- A transaction handed to the transport and not answered yet (R51, R52). -/
inductive Transaction where
  | write (addr : Addr) (frame : List Byte)
  | read (addr : Addr) (n : Nat)
deriving DecidableEq, Repr

/-- The settings a command frame carries to the device: reference selector, gain and value (R57). -/
structure Settings where
  ref   : Ref
  gain  : Bool
  value : Value
deriving DecidableEq, Repr

/-- The device behind the bus, as far as the spec says what a frame does there (R33, R50, R57, R65):
its volatile and its non-volatile settings, and the non-volatile write in progress with the settings it is
storing. Nothing the block does reads it: a status frame is a draw (R52, R65; notes/assumptions/13.md). -/
structure Device where
  vol     : Settings
  nv      : Settings
  nvWrite : Option Settings
deriving DecidableEq, Repr

/-- A write that a reset abandoned: it was handed to the transport and is not recalled (R190), so its frame may
still reach the device. It is read as the instance that sent it was built. (An abandoned read leaves nothing
to hold: its answer has no effect.) -/
structure LateWrite where
  cfg   : Cfg
  frame : List Byte
deriving DecidableEq, Repr

/-- What can happen at the block's boundary between two steps of its own (R130, R147, R173), in the order the
environment lets it happen (notes/assumptions/6.md). -/
inductive Event where
  /-- `host.req(w)` (R89, R130) -/
  | request (w : BitVec 32)
  /-- operands on the pure encoder's port (R90) -/
  | encodePort (w : BitVec 30)
  /-- a frame on the pure decoder's port (R90) -/
  | decodePort (f : BitVec 48)
  /-- `tw.rsp(st)`: the outstanding write completes (R51) -/
  | writeDone (st : Byte)
  /-- `tr.rsp(F)`: the outstanding read is answered (R52) -/
  | readDone (frame : List Byte)
  /-- nothing arrives: the block takes its own step, if its state has one (R134, R136) -/
  | tick
  /-- reset or construction, with the configuration supplied (R190) -/
  | reset (c : Cfg)
  /-- the device's non-volatile write comes to its end (R65) -/
  | nvWriteEnds
  /-- the device loses power and is powered up again (R16, R176) -/
  | devicePowerCycle
  /-- the transport comes to rest (R190): the oldest abandoned write ends without an answer to the block -/
  | lateWriteEnds
deriving DecidableEq, Repr

/-- What has been observed at the interfaces (R15): accepted requests, results, transactions, answers taken,
clock samples, outputs of the pure ports, resets. -/
inductive Obs where
  /-- a host request was accepted (R130) -/
  | hostReq (i : Instr)
  /-- `host.rsp(ok)`, or `host.rsp(ok, status)` with the 48 status bits of R89 (R136) -/
  | hostRsp (ok : Bool) (status : Option (BitVec 48))
  | twReq (addr : Addr) (frame : List Byte)
  | twRsp (st : Byte)
  | trReq (addr : Addr) (n : Nat)
  | trRsp (frame : List Byte)
  | now (t : Nat)
  /-- `enc_frame` and `enc_len` (R90) -/
  | encPort (frame : BitVec 24) (len : Nat)
  /-- the 48-bit record of the pure decoder (R90) -/
  | decPort (status : BitVec 48)
  | reset
deriving DecidableEq, Repr

/-- The machine. The first six fields are the block's registers and its outstanding transaction (10_state.md);
`twStatus` is the completion-status lines of the transport's write port (R51); `inbox` and `clockIn` hold the
events and clock samples to come, `draws` counts the free values taken, `trace` is what was observed, newest
first; `device` stands outside the block, and so does `lateWrites`, the writes that resets abandoned and the
transport still carries, oldest first (R190; notes/assumptions/26.md). -/
structure State where
  cfg         : Cfg
  seq         : Seq
  req         : Request
  t0          : Nat
  res         : Result
  outstanding : Option Transaction
  twStatus    : Byte
  inbox       : List Event
  clockIn     : List Nat
  draws       : Nat
  trace       : List Obs
  device      : Device
  lateWrites  : List LateWrite
deriving DecidableEq, Repr

/-- There is no fault in this hardware: no trap mechanism, no fault state (R164, R167). The three error classes
of R160 are a result bit or silent, and the steps that meet them go on. Nobody raises anything; safe. -/
inductive Fault where
deriving DecidableEq, Repr

/-- What lies outside the spec's domain (93_implementation_defined.md, treatment "refuse"). Every one is safe:
nothing is claimed of a run that meets it. -/
inductive Refusal where
  /-- raised by exec for an instruction without a meaning; safe -/
  | notModelled (mnemonic : String)
  /-- raised by the operations and frames of one variant on an instance of another (R94, R121; U1); safe -/
  | variantMismatch
  /-- raised by a command frame that is not the outstanding write transaction (R51, R60; U16); safe -/
  | frameNotOutstanding
  /-- raised by a transport answer that arrives outside IDLE while none is awaited (R190; U16); safe -/
  | answerNotAwaited
  /-- raised by the fetch for bytes that are no frame of the port, such as a status frame of the wrong length
  (R113; U1); safe -/
  | noSuchFrame (r : Reject)
  /-- raised by a reset that supplies parameters no construction admits (R10, R20, R85; U7, U8); safe -/
  | illegalConstruction
deriving DecidableEq, Repr

/-- The settings at `State.reset` of a device of which nothing is known (DESIGN CHOICE,
notes/assumptions/20.md). -/
def Settings.zero : Settings := { ref := 0#2, gain := false, value := 0#16 }

/-- After reset (R34, R190): `SEQ = IDLE`, nothing outstanding, nothing presented. The configuration is what
construction supplies (notes/assumptions/1.md); the registers R34 calls unspecified hold a named value
(DESIGN CHOICE, notes/assumptions/2.md); no event is pending. -/
def State.reset : State :=
  { cfg := Cfg.default
    seq := .idle
    req := { op := .statusRead, ref := 0#2, gain := false, value := 0#16, persist := false }
    t0 := 0
    res := { ok := false, status := { vcfg := 0#8, vval := 0#16, nvcfg := 0#8, nvval := 0#16 } }
    outstanding := none
    twStatus := 0#8
    inbox := []
    clockIn := []
    draws := 0
    trace := []
    device := { vol := Settings.zero, nv := Settings.zero, nvWrite := none }
    lateWrites := [] }

end Sys2Proof.Machine
end

