-- ==== Sys2Proof/Machine/Flags.lean ====
section
/-! DEFINITION. Machine/Flags.lean: the fields of a ConfigStatus byte (R28), the one-bit quantities that act as
flags (R30), and the comparisons that steer the sequencer. -/

namespace Sys2Proof.Machine

/-- `RDY(c) = c[7]` (R28): 1 = no non-volatile write in progress. -/
def rdy (c : Byte) : Bool := c.getLsbD 7

/-- `POR(c) = c[6]` (R28). -/
def por (c : Byte) : Bool := c.getLsbD 6

/-- `UNUSED(c) = c[5]` (R28). -/
def unusedBit (c : Byte) : Bool := c.getLsbD 5

/-- `VREF(c) = c[4:3]` (R28). -/
def vref (c : Byte) : Ref := c.extractLsb' 3 2

/-- `PD(c) = c[2:1]` (R28). -/
def pd (c : Byte) : BitVec 2 := c.extractLsb' 1 2

/-- `G(c) = c[0]` (R28). -/
def gainFlag (c : Byte) : Bool := c.getLsbD 0

/-- The inverse: a ConfigStatus byte from its six fields (R28). -/
def packConfig (ready powerOn unused : Bool) (ref : Ref) (powerDown : BitVec 2) (gain : Bool) : Byte :=
  ((BitVec.ofBool ready).setWidth 8 <<< 7) ||| ((BitVec.ofBool powerOn).setWidth 8 <<< 6)
    ||| ((BitVec.ofBool unused).setWidth 8 <<< 5) ||| (ref.setWidth 8 <<< 3)
    ||| (powerDown.setWidth 8 <<< 1) ||| (BitVec.ofBool gain).setWidth 8

/-- `nz(gain_in)`: any non-zero gain operand is gain on (R24, R125). -/
def nz (gainIn : Byte) : Bool := gainIn != 0#8

/-- `e = (t - T0) mod 2^CLOCK_W`: the CLOCK_W-bit subtraction, borrow out discarded (R141). -/
def elapsed (clockW t t0 : Nat) : Nat := (BitVec.ofNat clockW t - BitVec.ofNat clockW t0).toNat

/-- The timeout test `e >= TIMEOUT_MS` (R134). -/
def timedOut (clockW t t0 : Nat) : Bool := decide (timeoutMs ≤ elapsed clockW t t0)

/-- The comparison of COND_PERSIST (R139): non-volatile reference, gain bit and all 16 value bits. -/
def storedMatches (d : DeviceStatus) (r : Request) : Bool :=
  vref d.nvcfg == r.ref && gainFlag d.nvcfg == r.gain && d.nvval == r.value

end Sys2Proof.Machine
end

