-- ==== Sys2Proof/Machine/Operands.lean ====
section
/-! DEFINITION. Machine/Operands.lean: the two pure functions, the command encoder (R120 to R123) and the
status decoder (R110, R111), and how values are laid into and taken out of frames (R88). -/

namespace Sys2Proof.Machine

/-- The command selector (R85, R120). -/
def selector (c : Cfg) (persist : Bool) : BitVec 3 :=
  if persist then c.cmdWriteAll else cmdWriteVolatile

/-- `B0 <- (cmd << 5) | (ref << 3) | (g << 2)` (R120). -/
def commandByte0 (c : Cfg) (ref : Ref) (gain persist : Bool) : Byte :=
  ((selector c persist).setWidth 8 <<< 5) ||| (ref.setWidth 8 <<< 3)
    ||| ((BitVec.ofBool gain).setWidth 8 <<< 2)

/-- ENCODE.8 (R121): two bytes. -/
def frame8 (c : Cfg) (ref : Ref) (gain : Bool) (value : Value) (persist : Bool) : List Byte :=
  [commandByte0 c ref gain persist, value.setWidth 8]

/-- ENCODE.10 (R122): three bytes, the value left-aligned in the last two. -/
def frame10 (c : Cfg) (ref : Ref) (gain : Bool) (value : Value) (persist : Bool) : List Byte :=
  let t : BitVec 10 := value.setWidth 10
  [commandByte0 c ref gain persist, t.extractLsb' 2 8, t.extractLsb' 0 2 ++ 0#6]

/-- ENCODE.12 (R123): three bytes, the value left-aligned in the last two. -/
def frame12 (c : Cfg) (ref : Ref) (gain : Bool) (value : Value) (persist : Bool) : List Byte :=
  let t : BitVec 12 := value.setWidth 12
  [commandByte0 c ref gain persist, t.extractLsb' 4 8, t.extractLsb' 0 4 ++ 0#4]

/-- `Encode(CFG.VARIANT, ref, g, value, persist)` (R14, R90). -/
def commandFrame (c : Cfg) (ref : Ref) (gain : Bool) (value : Value) (persist : Bool) : List Byte :=
  match c.variant with
  | .v8 => frame8 c ref gain value persist
  | .v10 => frame10 c ref gain value persist
  | .v12 => frame12 c ref gain value persist

/-- The low WIDTH(v) bits of a value, widened again (R88, R124). -/
def truncate (v : Variant) (value : Value) : Value :=
  match v with
  | .v8 => (value.setWidth 8).setWidth 16
  | .v10 => (value.setWidth 10).setWidth 16
  | .v12 => (value.setWidth 12).setWidth 16

/-- The value bits of a command frame taken out again (R88, the inverse). -/
def extractValue (v : Variant) (frame : List Byte) : Option Value :=
  match v, frame with
  | .v8, [_, b1] => some (b1.setWidth 16)
  | .v10, [_, b1, b2] => some ((b1.setWidth 16 <<< 2) ||| (b2.extractLsb' 6 2).setWidth 16)
  | .v12, [_, b1, b2] => some ((b1.setWidth 16 <<< 4) ||| (b2.extractLsb' 4 4).setWidth 16)
  | _, _ => none

/-- DECODE.N (R110): each value byte zero-extended to 16 bits. -/
def statusOfNarrow (s0 s1 s2 s3 : Byte) : DeviceStatus :=
  { vcfg := s0, vval := s1.setWidth 16, nvcfg := s2, nvval := s3.setWidth 16 }

/-- DECODE.W (R111): big-endian values, nothing masked or checked. -/
def statusOfWide (s0 s1 s2 s3 s4 s5 : Byte) : DeviceStatus :=
  { vcfg := s0, vval := s1 ++ s2, nvcfg := s3, nvval := s4 ++ s5 }

/-- `status = VCFG ++ VVAL ++ NVCFG ++ NVVAL`, 48 bits (R89). -/
def statusWord (d : DeviceStatus) : BitVec 48 := d.vcfg ++ d.vval ++ d.nvcfg ++ d.nvval

/-- `enc_frame[23:0]`: byte 0 in bits 23:16, byte 2 zero where the frame has none (R90). -/
def encFrame (frame : List Byte) : BitVec 24 :=
  match frame with
  | [b0, b1] => b0 ++ b1 ++ 0#8
  | [b0, b1, b2] => b0 ++ b1 ++ b2
  | _ => 0#24

end Sys2Proof.Machine
end

