-- ==== Sys2Proof/Machine/Ops.lean ====
section
/-! DEFINITION. Machine/Ops.lean: the operations the meanings share: observing an event, sampling the clock,
issuing transactions, ending an operation, delivering a failure, construction, and the device's side.
There is no exception to take and none to return from (R164, R167, R168): a failure is one result bit,
delivered by `transportFailure`, and the operation ends by `respond` like any other. -/

namespace Sys2Proof.Machine

/-- What a step of this machine answers. -/
abbrev Answer := Host.Outcome State Fault Refusal

/-- An interface event becomes observable (R15). -/
def observe (o : Obs) (s : State) : State := { s with trace := o :: s.trace }

/-- The environment goes on: more events and clock samples arrive behind those that are listed (R17, R147;
notes/assumptions/6.md). Between any two steps it may supply any, so a run need not end where a list does. -/
def receives (s : State) (events : List Event) (samples : List Nat) : State :=
  { s with inbox := s.inbox ++ events, clockIn := s.clockIn ++ samples }

/-! ## The clock (R53) -/

/-- The sample `Now()` gives in this state: the next listed one, else a free value; CLOCK_W bits. -/
def clockNow (s : State) : Nat :=
  match s.clockIn with
  | t :: _ => t % 2 ^ s.cfg.clockW
  | [] => Config.freeClock s.draws % 2 ^ s.cfg.clockW

/-- The state after the sample was taken. -/
def afterClock (s : State) : State :=
  { s with clockIn := s.clockIn.tail, draws := s.draws + 1, trace := .now (clockNow s) :: s.trace }

/-! ## Transactions (R51, R52) -/

/-- `emit tr.req(CFG.ADDR, STATUS_LEN(CFG.VARIANT))` and wait for the answer in `waiting` (R52). -/
def issueRead (waiting : Seq) (s : State) : State :=
  { s with
    seq := waiting
    outstanding := some (.read s.cfg.addr (statusLen s.cfg.variant))
    trace := .trReq s.cfg.addr (statusLen s.cfg.variant) :: s.trace }

/-- `emit tw.req(CFG.ADDR, F)` and wait for the completion status (R51). -/
def issueWrite (frame : List Byte) (s : State) : State :=
  { s with
    seq := .wrPend
    outstanding := some (.write s.cfg.addr frame)
    trace := .twReq s.cfg.addr frame :: s.trace }

/-- `StartWrite(ref, g, value, persist)` (R132): the clock is sampled before the frame is handed over. -/
def startWrite (ref : Ref) (gain : Bool) (value : Value) (persist : Bool) (s : State) : State :=
  issueWrite (commandFrame s.cfg ref gain value persist) { afterClock s with t0 := clockNow s }

/-- The answer of the outstanding transaction has arrived; `o` is what was observed. -/
def closeTransaction (o : Obs) (s : State) : State :=
  { s with outstanding := none, trace := o :: s.trace }

/-! ## Ends of an operation (R133, R136, R161) -/

/-- `RES.OK` and the next sequencer state. -/
def setOk (ok : Bool) (next : Seq) (s : State) : State :=
  { s with res := { s.res with ok := ok }, seq := next }

/-- `RES.STATUS <- d`. -/
def setStatus (d : DeviceStatus) (s : State) : State :=
  { s with res := { s.res with status := d } }

/-- TransportFailure (R161): `RES.OK <- 0`, the operation ends, no poll, no retry. -/
def transportFailure (s : State) : State := setOk false .done s

/-- The step out of DONE (R136): one result, and only STATUS_READ carries the record. -/
def respond (s : State) : State :=
  { s with
    seq := .idle
    trace := .hostRsp s.res.ok
      (if s.req.op = .statusRead then some (statusWord s.res.status) else none) :: s.trace }

/-! ## Construction (R34, R190) -/

/-- The write a reset abandons, if one was outstanding: the transport keeps it (R190). -/
def abandonedWrite (s : State) : List LateWrite :=
  match s.outstanding with
  | some (.write _ frame) => [{ cfg := s.cfg, frame := frame }]
  | some (.read _ _) => []
  | none => []

/-- Reset or construction with `c`: `SEQ = IDLE`, nothing outstanding for the block, no response; every
register R34 calls unspecified becomes a free value (notes/assumptions/14.md); the device is not affected by
the reset itself. A write that was outstanding is not recalled (R190): it moves to `lateWrites`, and WHEN its
frame acts on the device is the model's choice (DESIGN CHOICE, notes/assumptions/26.md). The block forgets the
abandoned transaction, so an answer of it that comes after a new request is taken as the new transaction's
(DESIGN CHOICE, notes/assumptions/27.md: R190 calls that a case its rules do not cover). -/
def construct (c : Cfg) (s : State) : State :=
  { s with
    cfg := c
    seq := .idle
    req :=
      { op := Config.freeOp s.draws
        ref := Config.freeRef s.draws
        gain := Config.freeBit s.draws
        value := Config.freeValue s.draws
        persist := Config.freeBit (s.draws + 1) }
    t0 := Config.freeClock s.draws % 2 ^ c.clockW
    res :=
      { ok := Config.freeBit (s.draws + 2)
        status :=
          { vcfg := Config.freeByte s.draws
            vval := Config.freeValue (s.draws + 1)
            nvcfg := Config.freeByte (s.draws + 1)
            nvval := Config.freeValue (s.draws + 2) } }
    outstanding := none
    draws := s.draws + 3
    trace := .reset :: s.trace
    lateWrites := s.lateWrites ++ abandonedWrite s }

/-! ## The device's side of a command frame (R57, R65) -/

/-- Settings of which nothing is known but that the value fits the variant. -/
def freeSettings (v : Variant) (n : Nat) : Settings :=
  { ref := Config.freeRef n, gain := Config.freeBit n, value := truncate v (Config.freeValue n) }

/-- A device of which nothing is known. -/
def freeDevice (v : Variant) (n : Nat) : Device :=
  { vol := freeSettings v n
    nv := freeSettings v (n + 1)
    nvWrite := if Config.freeBit (n + 3) then some (freeSettings v (n + 2)) else none }

/-- What a delivered frame does to the device (R57): a write-volatile frame sets the volatile settings, a
write-all frame sets them too and begins a non-volatile write, whose target is unknown until it ends. Unless it
is `certain` that this frame was delivered (R167), and where it meets a non-volatile write in progress (U17),
nothing is known of the device afterwards. -/
def deviceTakes (v : Variant) (persist : Bool) (x : Settings) (certain : Bool) (n : Nat) (d : Device) :
    Device :=
  if certain = false ∨ d.nvWrite.isSome then freeDevice v n
  else if persist then { vol := x, nv := freeSettings v n, nvWrite := some x }
  else { d with vol := x }

/-- The non-volatile write ends: what it was storing is stored, and the device is idle (R65). -/
def deviceStores (d : Device) : Device :=
  match d.nvWrite with
  | some x => { d with nv := x, nvWrite := none }
  | none => d

/-- Power is lost and returns: volatile settings are restored from the non-volatile ones (R16, R176). A
non-volatile write that was cut off leaves a device of which nothing is known. -/
def devicePowers (v : Variant) (n : Nat) (d : Device) : Device :=
  match d.nvWrite with
  | some _ => freeDevice v n
  | none => { d with vol := d.nv }

/-- The device under the frame that the completed write carried; free values are drawn. The chip is taken to be
the one R191 requires, of CFG.VARIANT at CFG.ADDR (DESIGN CHOICE, notes/assumptions/13.md: R197 leaves open what
a chip of another variant does with a frame). While a write abandoned by a reset is still with the transport,
the status may be that write's, so it is not certain that this frame was delivered (notes/assumptions/27.md). -/
def deliverFrame (persist : Bool) (x : Settings) (s : State) : State :=
  { s with
    device := deviceTakes s.cfg.variant persist x (s.twStatus == 0#8 && s.lateWrites.isEmpty) s.draws s.device
    draws := s.draws + 4 }

/-- The settings in a command frame as an instance built with `c` sends it, and whether it persists (R81 to R85,
R88). -/
def frameSettings (c : Cfg) (frame : List Byte) : Option (Bool × Settings) :=
  match frame, extractValue c.variant frame with
  | b0 :: _, some value =>
    match selectorPersists c b0 with
    | .ok persist => some (persist, { ref := frameRef b0, gain := frameGain b0, value := value })
    | .error _ => none
  | _, _ => none

/-- The device under the frame of a write that a reset abandoned (R190). The frame went to the address it was sent
to, `w.cfg.addr`, and the device held in State is taken to be at that address too, although the reset may have
supplied another one (DESIGN CHOICE, notes/assumptions/26.md: the spec does not say which chips stand where). -/
def lateTakes (w : LateWrite) (certain : Bool) (n : Nat) (d : Device) : Device :=
  match frameSettings w.cfg w.frame with
  | some (persist, x) => deviceTakes w.cfg.variant persist x certain n d
  | none => freeDevice w.cfg.variant n

/-- The oldest write that a reset abandoned comes to its end: the block is not touched, the device takes the
frame (R190; notes/assumptions/26.md). -/
def endLateWrite (certain : Bool) (s : State) : State :=
  match s.lateWrites with
  | [] => s
  | w :: rest =>
    { s with
      lateWrites := rest
      device := lateTakes w certain s.draws s.device
      draws := s.draws + 4 }

end Sys2Proof.Machine
end

