-- ==== Sys2Proof/Machine/Codec.lean ====
section
/-! DEFINITION. Machine/Codec.lean: the five pure operations offered to the host on ports of their own (R90):
no register is written, no transaction is issued, the clock is not sampled (R115, R127). What they give
appears on the port, which the trace records. -/

namespace Sys2Proof.Machine

/-- A pure operation of one variant: its output appears on the port (R90, R94). -/
def onPort (fits : Bool) (o : Obs) (s : State) : Answer :=
  if fits then .next (observe o s) else .refused .variantMismatch

/-- ENCODE.8 (R121). -/
def execEncode8 (persist : Bool) (ref : Ref) (gainIn : Byte) (value : Value) (s : State) : Answer :=
  let f := frame8 s.cfg ref (nz gainIn) value persist
  onPort (s.cfg.variant == .v8) (.encPort (encFrame f) f.length) s

/-- ENCODE.10 (R122). -/
def execEncode10 (persist : Bool) (ref : Ref) (gainIn : Byte) (value : Value) (s : State) : Answer :=
  let f := frame10 s.cfg ref (nz gainIn) value persist
  onPort (s.cfg.variant == .v10) (.encPort (encFrame f) f.length) s

/-- ENCODE.12 (R123). -/
def execEncode12 (persist : Bool) (ref : Ref) (gainIn : Byte) (value : Value) (s : State) : Answer :=
  let f := frame12 s.cfg ref (nz gainIn) value persist
  onPort (s.cfg.variant == .v12) (.encPort (encFrame f) f.length) s

/-- DECODE.N (R110). -/
def execDecodeN (s0 s1 s2 s3 : Byte) (s : State) : Answer :=
  onPort (s.cfg.variant == .v8) (.decPort (statusWord (statusOfNarrow s0 s1 s2 s3))) s

/-- DECODE.W (R111). -/
def execDecodeW (s0 s1 s2 s3 s4 s5 : Byte) (s : State) : Answer :=
  onPort (s.cfg.variant != .v8) (.decPort (statusWord (statusOfWide s0 s1 s2 s3 s4 s5))) s

end Sys2Proof.Machine
end

