-- ==== Sys2Proof/Machine/Sequencer.lean ====
section
/-! DEFINITION. Machine/Sequencer.lean: the sequenced operations STATUS_READ, EXECUTE, COND_PERSIST (R130 to
R139): acceptance, the block's own steps, and how it takes the transport's answers. -/

namespace Sys2Proof.Machine

/-- Acceptance (R130): only in IDLE. In any other state a request has no step: it is neither queued nor
answered, and the operation in progress is not disturbed (notes/assumptions/10.md). -/
def whenIdle (accept : State → State) (s : State) : Answer :=
  if s.seq = .idle then .next (accept s) else .next s

/-- STATUS_READ (R130, R131): latch the operation, issue one status read. -/
def execStatusRead (s : State) : Answer :=
  whenIdle (fun s =>
    issueRead .srRead { observe (.hostReq .statusRead) s with req := { s.req with op := .statusRead } }) s

/-- EXECUTE (R130, R132): latch the operands, the gain normalised (R24), and start the write. -/
def execExecute (persist : Bool) (ref : Ref) (gainIn : Byte) (value : Value) (s : State) : Answer :=
  whenIdle (fun s =>
    startWrite ref (nz gainIn) value persist
      { observe (.hostReq (.execute persist ref gainIn value)) s with
        req := { op := .execute, ref := ref, gain := nz gainIn, value := value, persist := persist } }) s

/-- COND_PERSIST (R130, R138): latch the operands with persist forced to 1, issue one status read. -/
def execCondPersist (ref : Ref) (gainIn : Byte) (value : Value) (s : State) : Answer :=
  whenIdle (fun s =>
    issueRead .cpRead
      { observe (.hostReq (.condPersist ref gainIn value)) s with
        req := { op := .condPersist, ref := ref, gain := nz gainIn, value := value, persist := true } }) s

/-- The poll loop's timeout test (R134), made before every status read of the loop. -/
def timeoutTest (s : State) : State :=
  if timedOut s.cfg.clockW (clockNow s) s.t0 then { afterClock s with seq := .pollingTimedOut }
  else issueRead .pollRead (afterClock s)

/-- The block's own step (R134, R136). In IDLE and where it waits for the transport it has none. -/
def ownStep (s : State) : State :=
  match s.seq with
  | .transactionSent => timeoutTest s
  | .pollingReady => { s with seq := .done }
  | .pollingTimedOut => { s with seq := .done }
  | .done => respond s
  | .idle => s
  | .srRead => s
  | .cpRead => s
  | .wrPend => s
  | .pollRead => s

/-- The write's completion (R133): all of the status lines are looked at, `persist` only after a success. -/
def writeCompletes (s : State) : State :=
  if s.twStatus ≠ 0#8 then transportFailure s
  else if s.req.persist then setOk true .transactionSent s
  else setOk true .done s

/-- The compare and branch of COND_PERSIST (R139). -/
def compareStored (d : DeviceStatus) (s : State) : State :=
  if storedMatches d s.req then setOk true .done s
  else startWrite s.req.ref s.req.gain s.req.value true s

/-- A status frame arrives as the answer of the outstanding read: STATUS_READ takes it (R131), COND_PERSIST
compares (R139), the poll loop looks at RDY of the volatile ConfigStatus (R135). In IDLE it is dropped (R190);
anywhere else none is awaited (U16). Which read it answers cannot be told: after a reset a stale frame is taken
as the new read's (DESIGN CHOICE, notes/assumptions/27.md). -/
def takeStatus (frame : List Byte) (d : DeviceStatus) (s : State) : Answer :=
  match s.seq with
  | .srRead => .next (setOk true .done (setStatus d (closeTransaction (.trRsp frame) s)))
  | .cpRead => .next (compareStored d (setStatus d (closeTransaction (.trRsp frame) s)))
  | .pollRead =>
    .next { setStatus d (closeTransaction (.trRsp frame) s) with
      seq := if rdy d.vcfg then .pollingReady else .transactionSent }
  | .idle => .next s
  | .wrPend => .refused .answerNotAwaited
  | .transactionSent => .refused .answerNotAwaited
  | .pollingReady => .refused .answerNotAwaited
  | .pollingTimedOut => .refused .answerNotAwaited
  | .done => .refused .answerNotAwaited

end Sys2Proof.Machine
end

