-- ==== Sys2Proof/Machine/Frames.lean ====
section
/-! DEFINITION. Machine/Frames.lean: the wire frames. A command frame's meaning is the write transaction that
carries it: the frame goes to the device at CFG.ADDR and the completion status comes back (R51, R133, R57). A
status frame's meaning is the read transaction's answer (R52, R131, R135, R139). See notes/assumptions/11.md. -/

namespace Sys2Proof.Machine

/-- The write transaction that carries `frame`: it must be the one outstanding (R60), the device takes the
frame as far as the status says, and the block goes on as R133 says. -/
def carryWrite (v : Variant) (persist : Bool) (frame : List Byte) (x : Settings) (s : State) : Answer :=
  if s.cfg.variant ≠ v then .refused .variantMismatch
  else if s.seq = .wrPend ∧ s.outstanding = some (.write s.cfg.addr frame) then
    .next (writeCompletes (closeTransaction (.twRsp s.twStatus) (deliverFrame persist x s)))
  else .refused .frameNotOutstanding

/-- WRVOL.8 (R81, R82, R121). -/
def execWrvol8 (ref : Ref) (gain : Bool) (value : Value) (s : State) : Answer :=
  carryWrite .v8 false (frame8 s.cfg ref gain value false)
    { ref := ref, gain := gain, value := truncate .v8 value } s

/-- WRVOL.10 (R81, R83, R122). -/
def execWrvol10 (ref : Ref) (gain : Bool) (value : Value) (s : State) : Answer :=
  carryWrite .v10 false (frame10 s.cfg ref gain value false)
    { ref := ref, gain := gain, value := truncate .v10 value } s

/-- WRVOL.12 (R81, R84, R123). -/
def execWrvol12 (ref : Ref) (gain : Bool) (value : Value) (s : State) : Answer :=
  carryWrite .v12 false (frame12 s.cfg ref gain value false)
    { ref := ref, gain := gain, value := truncate .v12 value } s

/-- WRALL.8 (R81, R82, R85, R121). -/
def execWrall8 (ref : Ref) (gain : Bool) (value : Value) (s : State) : Answer :=
  carryWrite .v8 true (frame8 s.cfg ref gain value true)
    { ref := ref, gain := gain, value := truncate .v8 value } s

/-- WRALL.10 (R81, R83, R85, R122). -/
def execWrall10 (ref : Ref) (gain : Bool) (value : Value) (s : State) : Answer :=
  carryWrite .v10 true (frame10 s.cfg ref gain value true)
    { ref := ref, gain := gain, value := truncate .v10 value } s

/-- WRALL.12 (R81, R84, R85, R123). -/
def execWrall12 (ref : Ref) (gain : Bool) (value : Value) (s : State) : Answer :=
  carryWrite .v12 true (frame12 s.cfg ref gain value true)
    { ref := ref, gain := gain, value := truncate .v12 value } s

/-- STATUS.N (R86, R110), on an instance of the 8-bit variant. -/
def execStatusN (s0 s1 s2 s3 : Byte) (s : State) : Answer :=
  if s.cfg.variant = .v8 then takeStatus [s0, s1, s2, s3] (statusOfNarrow s0 s1 s2 s3) s
  else .refused .variantMismatch

/-- STATUS.W (R87, R111), on an instance of the 10- or 12-bit variant. -/
def execStatusW (s0 s1 s2 s3 s4 s5 : Byte) (s : State) : Answer :=
  if s.cfg.variant = .v8 then .refused .variantMismatch
  else takeStatus [s0, s1, s2, s3, s4, s5] (statusOfWide s0 s1 s2 s3 s4 s5) s

end Sys2Proof.Machine
end

