-- ==== Sys2Proof/Machine/Dispatch.lean ====
section
/-! DEFINITION. Machine/Dispatch.lean: one arm per row of the opcode table. -/

namespace Sys2Proof.Machine

def exec (i : Instr) (s : State) : Host.Outcome State Fault Refusal :=
  match i with
  | .wrvol8 ref gain value => Sys2Proof.Machine.execWrvol8 ref gain value s
  | .wrvol10 ref gain value => Sys2Proof.Machine.execWrvol10 ref gain value s
  | .wrvol12 ref gain value => Sys2Proof.Machine.execWrvol12 ref gain value s
  | .wrall8 ref gain value => Sys2Proof.Machine.execWrall8 ref gain value s
  | .wrall10 ref gain value => Sys2Proof.Machine.execWrall10 ref gain value s
  | .wrall12 ref gain value => Sys2Proof.Machine.execWrall12 ref gain value s
  | .statusN s0 s1 s2 s3 => Sys2Proof.Machine.execStatusN s0 s1 s2 s3 s
  | .statusW s0 s1 s2 s3 s4 s5 => Sys2Proof.Machine.execStatusW s0 s1 s2 s3 s4 s5 s
  | .statusRead => Sys2Proof.Machine.execStatusRead s
  | .execute persist ref gainIn value => Sys2Proof.Machine.execExecute persist ref gainIn value s
  | .condPersist ref gainIn value => Sys2Proof.Machine.execCondPersist ref gainIn value s
  | .encode8 persist ref gainIn value => Sys2Proof.Machine.execEncode8 persist ref gainIn value s
  | .encode10 persist ref gainIn value => Sys2Proof.Machine.execEncode10 persist ref gainIn value s
  | .encode12 persist ref gainIn value => Sys2Proof.Machine.execEncode12 persist ref gainIn value s
  | .decodeN s0 s1 s2 s3 => Sys2Proof.Machine.execDecodeN s0 s1 s2 s3 s
  | .decodeW s0 s1 s2 s3 s4 s5 => Sys2Proof.Machine.execDecodeW s0 s1 s2 s3 s4 s5 s

end Sys2Proof.Machine
end

