-- ==== Sys2Proof/Machine/Fetch.lean ====
section
/-! DEFINITION. Machine/Fetch.lean: the block has no program store (R63): the next instruction is what stands
on one of its ports. Which bytes an event presents there, what it latches, what the events that are no
instruction do, and how a word is placed to be fetched next. -/

namespace Sys2Proof.Machine

/-- The port and the bytes an event presents, if it presents an instruction: a request word, operands on a
pure port, a status frame, or, when the outstanding write completes, the command frame it carried (R91). In IDLE
no step takes a transport answer (R190): a status frame of whatever length is not looked at there. -/
def presented (e : Event) (s : State) : Option (Port × List Byte) :=
  match e with
  | .request w => some (.request, bytes32 w)
  | .encodePort w => some (.encodePort, bytes32 (w.setWidth 32))
  | .decodePort f => some (.decodePort, bytes48 f)
  | .readDone frame => if s.seq = .idle then none else some (.status, frame)
  | .writeDone _ =>
    match s.outstanding with
    | some (.write _ frame) => some (.command, frame)
    | some (.read _ _) => none
    | none => none
  | .tick => none
  | .reset _ => none
  | .nvWriteEnds => none
  | .devicePowerCycle => none
  | .lateWriteEnds => none

/-- The instruction an event presents to an instance in state `s`. -/
def fetch (e : Event) (s : State) : Option (Except Reject Instr) :=
  match presented e s with
  | some (p, bs) => some (decode s.cfg p bs)
  | none => none

/-- A completing write drives the completion-status lines (R51). -/
def latch (e : Event) (s : State) : State :=
  match e with
  | .writeDone st => { s with twStatus := st }
  | _ => s

/-- Bytes that are no instruction: a request word with op = 0b00 is not a request and has no step (R130). Anything
else is outside the contract of the port: a status frame of another length than the block asked for, while an
answer is awaited or expected (R52, R113; U1 says refuse), or an outstanding frame that the encoder never makes
(R51), which no state of the invariant holds. -/
def rejected (r : Reject) (s : State) : Answer :=
  match r with
  | .noOperation => .next s
  | _ => .refused (.noSuchFrame r)

/-- The events that present no instruction. A transport answer without an outstanding transaction is dropped in
IDLE (R190), where a completion status also tells that the oldest abandoned write has ended
(notes/assumptions/26.md), and is awaited by nobody elsewhere (U16). A construction with parameters that are
not admitted is refused (R20, R85). -/
def environment (e : Event) (s : State) : Answer :=
  match e with
  | .tick => .next (ownStep s)
  | .writeDone st =>
    if s.seq = .idle then .next (endLateWrite (st == 0#8) s) else .refused .answerNotAwaited
  | .reset c => if c.wf then .next (construct c s) else .refused .illegalConstruction
  | .nvWriteEnds => .next { s with device := deviceStores s.device }
  | .devicePowerCycle =>
    .next { s with device := devicePowers s.cfg.variant s.draws s.device, draws := s.draws + 4 }
  | .lateWriteEnds => .next (endLateWrite false s)
  | .request _ => .next s
  | .encodePort _ => .next s
  | .decodePort _ => .next s
  | .readDone _ => .next s

/-- The state in which the next event presents these bytes on this port to an instance of variant `v`. The
wire frames need the transaction that carries them outstanding and the sequencer waiting for it. -/
def place (p : Port) (v : Variant) (bs : List Byte) (s : State) : State :=
  match p with
  | .request => { s with inbox := .request (BitVec.ofNat 32 (natOfBytes bs)) :: s.inbox }
  | .encodePort =>
    { s with
      cfg := { s.cfg with variant := v }
      inbox := .encodePort (BitVec.ofNat 30 (natOfBytes bs)) :: s.inbox }
  | .decodePort =>
    { s with
      cfg := { s.cfg with variant := v }
      inbox := .decodePort (BitVec.ofNat 48 (natOfBytes bs)) :: s.inbox }
  | .status =>
    { s with
      cfg := { s.cfg with variant := v }
      seq := .srRead
      req := { s.req with op := .statusRead }
      outstanding := some (.read s.cfg.addr (statusLen v))
      inbox := .readDone bs :: s.inbox }
  | .command =>
    { s with
      cfg := { s.cfg with variant := v, cmdWriteAll := cmdWriteAllDefault }
      seq := .wrPend
      outstanding := some (.write s.cfg.addr bs)
      inbox := .writeDone 0#8 :: s.inbox }

end Sys2Proof.Machine
end

