-- ==== Sys2Proof/Machine/Step.lean ====
section
/-! DEFINITION. Machine/Step.lean: one step. The next event of the inbox is taken; if it presents an
instruction, that instruction runs. With nothing pending the block takes its own step, or waits. -/

namespace Sys2Proof.Machine

/-- One step of the machine (R15). -/
def step (s : State) : Host.Outcome State Fault Refusal :=
  match s.inbox with
  | [] => .next (ownStep s)
  | e :: rest =>
    match fetch e (latch e { s with inbox := rest }) with
    | some (.ok i) => exec i (latch e { s with inbox := rest })
    | some (.error r) => rejected r (latch e { s with inbox := rest })
    | none => environment e (latch e { s with inbox := rest })

/-- `s` with the instruction whose bits, numbered as the opcode table numbers them, are `w`, presented next. -/
def State.withFetchWord (s : State) (nbits w : Nat) : State :=
  match tableSource nbits w with
  | none => s
  | some (p, v) => place p v (tableBytes nbits w) s

end Sys2Proof.Machine
end

