-- ==== Sys2Proof/Safety.lean ====
section
/-! DEFINITION. Safety.lean: what counts as a safe run, in the terms the claims use: the invariants of the
machine, the duties of its environment, the transition table, and counts over the observed events. -/

namespace Sys2Proof.Safety

open Sys2Proof Sys2Proof.Machine

/-! ## Invariants -/

/-- The transaction that must be outstanding in a state: a status read where the sequencer awaits one, the
encoded request where it awaits a write's completion, else none (R60, R130 to R139). -/
def expectedTransaction (s : State) : Option Transaction :=
  match s.seq with
  | .srRead => some (.read s.cfg.addr (statusLen s.cfg.variant))
  | .cpRead => some (.read s.cfg.addr (statusLen s.cfg.variant))
  | .pollRead => some (.read s.cfg.addr (statusLen s.cfg.variant))
  | .wrPend =>
    some (.write s.cfg.addr (commandFrame s.cfg s.req.ref s.req.gain s.req.value s.req.persist))
  | .idle => none
  | .transactionSent => none
  | .pollingReady => none
  | .pollingTimedOut => none
  | .done => none

/-- What the latches and RES.OK must hold in each sequencer state for the operation in progress. -/
def latchesMatch (s : State) : Prop :=
  match s.seq with
  | .idle => True
  | .srRead => s.req.op = .statusRead
  | .cpRead => s.req.op = .condPersist ∧ s.req.persist = true
  | .wrPend => s.req.op = .execute ∨ (s.req.op = .condPersist ∧ s.req.persist = true)
  | .transactionSent => s.req.op ≠ .statusRead ∧ s.req.persist = true ∧ s.res.ok = true
  | .pollRead => s.req.op ≠ .statusRead ∧ s.req.persist = true ∧ s.res.ok = true
  | .pollingReady => s.req.op ≠ .statusRead ∧ s.req.persist = true ∧ s.res.ok = true
  | .pollingTimedOut => s.req.op ≠ .statusRead ∧ s.req.persist = true ∧ s.res.ok = true
  | .done => s.req.op = .statusRead → s.res.ok = true

/-- The invariant: an admitted configuration, T0 a CLOCK_W-bit number, the outstanding transaction the one the
sequencer waits for, the latches those of the operation in progress. -/
structure BlockInv (s : State) : Prop where
  cfgAdmitted : s.cfg.wf = true
  t0Fits : s.t0 < 2 ^ s.cfg.clockW
  outstandingIs : s.outstanding = expectedTransaction s
  latches : latchesMatch s

/-- How many more requests were accepted than results given, since the last reset (R136, R146). A result with
nothing open shows as a negative number. -/
def openOperations : List Obs → Int
  | [] => 0
  | .hostReq _ :: rest => openOperations rest + 1
  | .hostRsp _ _ :: rest => openOperations rest - 1
  | .reset :: _ => 0
  | .twReq _ _ :: rest => openOperations rest
  | .twRsp _ :: rest => openOperations rest
  | .trReq _ _ :: rest => openOperations rest
  | .trRsp _ :: rest => openOperations rest
  | .now _ :: rest => openOperations rest
  | .encPort _ _ :: rest => openOperations rest
  | .decPort _ :: rest => openOperations rest

/-- How many more transactions were issued than answers taken, since the last reset (R60). An answer with nothing
open shows as a negative number. -/
def openTransactions : List Obs → Int
  | [] => 0
  | .twReq _ _ :: rest => openTransactions rest + 1
  | .trReq _ _ :: rest => openTransactions rest + 1
  | .twRsp _ :: rest => openTransactions rest - 1
  | .trRsp _ :: rest => openTransactions rest - 1
  | .reset :: _ => 0
  | .hostReq _ :: rest => openTransactions rest
  | .hostRsp _ _ :: rest => openTransactions rest
  | .now _ :: rest => openTransactions rest
  | .encPort _ _ :: rest => openTransactions rest
  | .decPort _ :: rest => openTransactions rest

/-- The observed events pair up: one open operation outside IDLE and none in it, one open transaction where
one is outstanding and none elsewhere. -/
structure Paired (s : State) : Prop where
  operations : openOperations s.trace = if s.seq = .idle then 0 else 1
  transactions : openTransactions s.trace = if s.outstanding.isSome then 1 else 0

/-- The completion status of the write of the operation in progress, if it has had one. -/
def writeStatus : List Obs → Option Byte
  | [] => none
  | .hostReq _ :: _ => none
  | .reset :: _ => none
  | .twRsp st :: _ => some st
  | .hostRsp _ _ :: rest => writeStatus rest
  | .twReq _ _ :: rest => writeStatus rest
  | .trReq _ _ :: rest => writeStatus rest
  | .trRsp _ :: rest => writeStatus rest
  | .now _ :: rest => writeStatus rest
  | .encPort _ _ :: rest => writeStatus rest
  | .decPort _ :: rest => writeStatus rest

/-- RES.OK tells whether the write succeeded and nothing else (R137): before the write completes no status is
on record; after it, RES.OK is 1 exactly when the status was 0; an operation that made no write has RES.OK 1. -/
def okTellsStatus (s : State) : Prop :=
  match s.seq with
  | .idle => True
  | .srRead => writeStatus s.trace = none
  | .cpRead => writeStatus s.trace = none
  | .wrPend => writeStatus s.trace = none
  | .transactionSent => writeStatus s.trace = some 0#8 ∧ s.res.ok = true
  | .pollRead => writeStatus s.trace = some 0#8 ∧ s.res.ok = true
  | .pollingReady => writeStatus s.trace = some 0#8 ∧ s.res.ok = true
  | .pollingTimedOut => writeStatus s.trace = some 0#8 ∧ s.res.ok = true
  | .done => s.res.ok = true ↔ ∀ st, writeStatus s.trace = some st → st = 0#8

/-! ## The environment's duties (R147) -/

/-- The events the environment may let happen in a state: the transport answers only what is outstanding (or
too late, in IDLE), a read with exactly STATUS_LEN bytes, and a construction supplies admitted parameters.
The platform's duty to bring the transport to rest before the first request after a reset (R147, R190) is NOT
asked for: without it an answer may be a stale one, and what is claimed holds then too
(notes/assumptions/27.md). -/
def Permitted (s : State) : Event → Prop
  | .request _ => True
  | .encodePort _ => True
  | .decodePort _ => True
  | .writeDone _ => s.seq = .wrPend ∨ s.seq = .idle
  | .readDone frame =>
    s.seq = .idle ∨
      (frame.length = statusLen s.cfg.variant ∧ (s.seq = .srRead ∨ s.seq = .cpRead ∨ s.seq = .pollRead))
  | .tick => True
  | .reset c => c.wf = true
  | .nvWriteEnds => True
  | .devicePowerCycle => True
  | .lateWriteEnds => True

/-- Whether the next event is a reset. -/
def resetNext (s : State) : Bool :=
  match s.inbox with
  | .reset _ :: _ => true
  | _ => false

/-! ## The transition table (R140) -/

/-- The rows of R140 that change SEQ. -/
def seqEdge : Seq → Seq → Bool
  | .idle, .srRead => true
  | .idle, .wrPend => true
  | .idle, .cpRead => true
  | .srRead, .done => true
  | .cpRead, .done => true
  | .cpRead, .wrPend => true
  | .wrPend, .done => true
  | .wrPend, .transactionSent => true
  | .transactionSent, .pollingTimedOut => true
  | .transactionSent, .pollRead => true
  | .pollRead, .pollingReady => true
  | .pollRead, .transactionSent => true
  | .pollingReady, .done => true
  | .pollingTimedOut, .done => true
  | .done, .idle => true
  | _, _ => false

/-! ## What a step may show at the interfaces -/

/-- A transaction the block may issue, a sample it may take (R50, R53, R56). -/
def obsAdmitted (c : Cfg) : Obs → Prop
  | .twReq addr frame => addr = c.addr ∧ frame.length = cmdLen c.variant
  | .trReq addr n => addr = c.addr ∧ n = statusLen c.variant
  | .now t => t < 2 ^ c.clockW
  | _ => True

/-! ## Runs that share only the configuration (R32, R35) -/

/-- The registers a later step of the operation in progress can read agree (R35). -/
def liveAgree (s t : State) : Prop :=
  match s.seq with
  | .idle => True
  | .srRead => s.req.op = t.req.op
  | .cpRead => s.req = t.req
  | .wrPend =>
    s.req.op = t.req.op ∧ s.req.persist = t.req.persist ∧ (s.req.persist = true → s.t0 = t.t0)
  | .transactionSent => s.req.op = t.req.op ∧ s.t0 = t.t0 ∧ s.res.ok = t.res.ok
  | .pollRead => s.req.op = t.req.op ∧ s.t0 = t.t0 ∧ s.res.ok = t.res.ok
  | .pollingReady => s.req.op = t.req.op ∧ s.res.ok = t.res.ok
  | .pollingTimedOut => s.req.op = t.req.op ∧ s.res.ok = t.res.ok
  | .done =>
    s.req.op = t.req.op ∧ s.res.ok = t.res.ok ∧ (s.req.op = .statusRead → s.res.status = t.res.status)

/-- Two states that agree but for dead registers and everything outside the block: same configuration, same point
of the same operation, same events and clock samples to come. Nothing is asked of the device, of writes a reset
abandoned, of the history of observations, of the status lines or of the count of free values. -/
structure SameLive (s t : State) : Prop where
  cfg : s.cfg = t.cfg
  seq : s.seq = t.seq
  outstanding : s.outstanding = t.outstanding
  inbox : s.inbox = t.inbox
  clockIn : s.clockIn = t.clockIn
  live : liveAgree s t

/-! ## Counting, and the poll loop as a list of oracle answers (R142, R143) -/

def isWrite : Obs → Bool
  | .twReq _ _ => true
  | _ => false

def isRead : Obs → Bool
  | .trReq _ _ => true
  | _ => false

def isSample : Obs → Bool
  | .now _ => true
  | _ => false

/-- Writes, reads and clock samples among observed events (the columns of R142). -/
def counts (os : List Obs) : Nat × Nat × Nat :=
  (os.countP isWrite, os.countP isRead, os.countP isSample)

/-- Elapsed milliseconds from `t0` to `t` on a counter of `w` bits, in plain numbers (R141). -/
def msSince (w t0 t : Nat) : Nat := (t % 2 ^ w + 2 ^ w - t0 % 2 ^ w) % 2 ^ w

/-- A status frame of the right length whose first byte has bit 7 as given (R135). -/
def answersReady (v : Variant) (ready : Bool) (frame : List Byte) : Prop :=
  frame.length = statusLen v ∧ ∃ c rest, frame = c :: rest ∧ decide (128 ≤ c.toNat) = ready

/-- The events of the poll loop: before each answer the block takes its own step. -/
def pollScript : List (List Byte) → List Event
  | [] => []
  | frame :: frames => .tick :: .readDone frame :: pollScript frames

/-! ## Infinite runs, and the fairness of the transport and the clock (R144, R146) -/

/-- An infinite run (R146): `r n` is the state in which step `n` is taken, with what the environment has supplied
by then; after each step the environment may supply more. -/
def IsRun (r : Nat → State) : Prop :=
  ∀ n, ∃ t events samples, step (r n) = .next t ∧ r (n + 1) = receives t events samples

/-- The next step is the block's own: nothing arrives in it. -/
def ownStepNext (s : State) : Prop := s.inbox.head? = none ∨ s.inbox.head? = some .tick

/-- The next step takes the answer of the outstanding transaction. -/
def answerNext (s : State) : Prop :=
  (s.seq = .wrPend ∧ ∃ st, s.inbox.head? = some (.writeDone st)) ∨
    ((s.seq = .srRead ∨ s.seq = .cpRead ∨ s.seq = .pollRead) ∧ ∃ frame, s.inbox.head? = some (.readDone frame))

/-- The next step is a timeout test (R134). -/
def testNext (s : State) : Prop := s.seq = .transactionSent ∧ ownStepNext s

/-- The next step is a timeout test whose sample has `e >= 100` (R134, R141). -/
def expiryNext (s : State) : Prop :=
  testNext s ∧ timeoutMs ≤ msSince s.cfg.clockW s.t0 (clockNow s)

/-- The next step takes a poll answer with RDY = 1 (R135). -/
def readyNext (s : State) : Prop :=
  s.seq = .pollRead ∧ ∃ frame, s.inbox.head? = some (.readDone frame) ∧ answersReady s.cfg.variant true frame

/-- The sequencer is in the poll loop (R134, R135). -/
def inPollLoop (s : State) : Prop := s.seq = .transactionSent ∨ s.seq = .pollRead

/-- R144 (a), a fairness assumption on the transport: every transaction is answered, sooner or later. -/
def TransportAnswers (r : Nat → State) : Prop :=
  ∀ n, (r n).outstanding ≠ none → ∃ m, n ≤ m ∧ answerNext (r m)

/-- R144 (b), a fairness assumption on the clock and the device: a poll loop that goes on for ever, testing the
time again and again, has some sample with `e >= 100`, or the device reports RDY = 1. -/
def ClockAdvances (r : Nat → State) : Prop :=
  ∀ n, (∀ m, n ≤ m → inPollLoop (r m)) → (∀ k, ∃ m, k ≤ m ∧ testNext (r m)) →
    ∃ m, n ≤ m ∧ (expiryNext (r m) ∨ readyNext (r m))

/-- The block gets its turn again and again: events without a step for it (a request while it is busy, the pure
ports, the device's own events) do not crowd out its own step for ever (notes/assumptions/6.md: the inbox makes
them take turns; in the spec such events take no step of the sequencer). -/
def BlockGetsTurns (r : Nat → State) : Prop := ∀ n, ∃ m, n ≤ m ∧ ownStepNext (r m)

end Sys2Proof.Safety
end

