-- ==== Sys2Proof/Certificates/Slice0/Obligations.lean ====
section
/-! DEFINITION. Certificates/Slice0/Obligations.lean: the statements for the provers. A clause that rests on a
choice the spec marks as its own ("decision: see 92_eei_decisions.md D<n>") or on one of the model's log entries
is named so in the docstring. -/

open Sys2Proof Sys2Proof.Machine Sys2Proof.Safety

/-! ## Parameters and fields -/

/-- R21: the per-variant constants. VMAX = 2^WIDTH - 1; a command frame is byte 0 and the value bytes; PAD, the zero
bits at the bottom of byte 2, is what the value bytes hold beyond WIDTH. -/
def Obligations.VariantConstantsAreTheTable : Prop :=
  (width .v8 = 8 ∧ width .v10 = 10 ∧ width .v12 = 12) ∧
  (statusLen .v8 = 4 ∧ statusLen .v10 = 6 ∧ statusLen .v12 = 6) ∧
  (cmdLen .v8 = 2 ∧ cmdLen .v10 = 3 ∧ cmdLen .v12 = 3) ∧
  (8 * (cmdLen .v10 - 1) - width .v10 = 6 ∧ 8 * (cmdLen .v12 - 1) - width .v12 = 4) ∧
  ∀ v, vmax v = 2 ^ width v - 1

/-- R28: the six fields of a ConfigStatus byte stand at bits 7, 6, 5, 4:3, 2:1 and 0, and the packing formula
is their inverse both ways. -/
def Obligations.ConfigStatusFieldsRoundTrip : Prop :=
  (∀ c : Byte,
    (rdy c = decide (128 ≤ c.toNat)) ∧ (por c = decide (c.toNat / 64 % 2 = 1)) ∧
    (unusedBit c = decide (c.toNat / 32 % 2 = 1)) ∧ (vref c).toNat = c.toNat / 8 % 4 ∧
    (pd c).toNat = c.toNat / 2 % 4 ∧ (gainFlag c = decide (c.toNat % 2 = 1)) ∧
    packConfig (rdy c) (por c) (unusedBit c) (vref c) (pd c) (gainFlag c) = c) ∧
  (∀ (r p u g : Bool) (ref : Ref) (d : BitVec 2),
    let c := packConfig r p u ref d g
    rdy c = r ∧ por c = p ∧ unusedBit c = u ∧ vref c = ref ∧ pd c = d ∧ gainFlag c = g)

/-! ## Encoding -/

/-- Decoding the bytes an instruction is encoded to gives it back, for every well-formed instruction of every
row, on an instance of a variant that has it, for every admitted CMD_WRITE_ALL. -/
def Obligations.DecodeInvertsEncode : Prop :=
  ∀ (c : Cfg) (i : Instr), c.wf = true → i.wf = true → i.fits c.variant = true →
    decode c i.port (encode c i) = .ok i

/-- The other direction on the wire: a command or status frame that decodes is exactly the frame its
instruction encodes to, and the instruction is well formed, so no two frames mean the same. That a command frame
with a reserved or pad bit set, or with another selector, does not decode is the model's choice
(notes/assumptions/19.md, DEDUCED); the spec says only that the block never sends one (R85, R92). -/
def Obligations.WireFramesHaveOneMeaning : Prop :=
  ∀ (c : Cfg) (p : Port) (bs : List Byte) (i : Instr), p = .command ∨ p = .status →
    decode c p bs = .ok i → encode c i = bs ∧ i.wf = true ∧ i.fits c.variant = true ∧ i.port = p

/-- R89, R92 (the layout is decision D2): bits 26:24 of a request word are ignored, bit 29 too when the word is
COND_PERSIST, all of bits 29:0 when it is STATUS_READ, and a word is no request exactly when bits 31:30 are 00. -/
def Obligations.RequestWordIgnoresReservedBits : Prop :=
  ∀ (c : Cfg) (w : BitVec 32),
    let d := fun w : BitVec 32 => decode c .request (bytes32 w)
    d (w &&& 0xF8FFFFFF#32) = d w ∧
    (w.toNat / 2 ^ 30 = 3 → d (w &&& 0xDFFFFFFF#32) = d w) ∧
    (w.toNat / 2 ^ 30 = 1 → d w = .ok .statusRead) ∧
    (w.toNat / 2 ^ 30 = 0 ↔ d w = .error .noOperation)

/-- A few words written out from the spec's encodings, one or more of each family: command frames (the first is
the source's worked frame, R122; the write-all one is built with the selector 101, so that no default of
CMD_WRITE_ALL has a say), status frames, request words, and words of both pure ports (R89, R90). -/
def Obligations.WrittenOutWordsDecode : Prop :=
  decode { Cfg.default with variant := .v10 } .command [0x40#8, 0x80#8, 0x00#8]
    = .ok (.wrvol10 0#2 false 512#16) ∧
  decode { Cfg.default with variant := .v12, cmdWriteAll := 5#3 } .command [0xBC#8, 0xAB#8, 0xC0#8]
    = .ok (.wrall12 3#2 true 0xABC#16) ∧
  decode Cfg.default .status [0xC0#8, 0xFF#8, 0xE9#8, 0x80#8]
    = .ok (.statusN 0xC0#8 0xFF#8 0xE9#8 0x80#8) ∧
  decode Cfg.default .request [0xA8#8, 0x01#8, 0x01#8, 0xA5#8]
    = .ok (.execute true 1#2 1#8 0x1A5#16) ∧
  decode Cfg.default .request [0xD0#8, 0x05#8, 0x00#8, 0x80#8]
    = .ok (.condPersist 2#2 5#8 0x80#16) ∧
  decode { Cfg.default with variant := .v12 } .encodePort [0x18#8, 0x01#8, 0x0A#8, 0xBC#8]
    = .ok (.encode12 false 3#2 1#8 0xABC#16) ∧
  decode Cfg.default .decodePort [0xC0#8, 0xFF#8, 0xE9#8, 0x80#8, 0xBE#8, 0xEF#8]
    = .ok (.decodeN 0xC0#8 0xFF#8 0xE9#8 0x80#8) ∧
  decode { Cfg.default with variant := .v10 } .decodePort [0xC8#8, 0x12#8, 0x34#8, 0xDF#8, 0xAB#8, 0xCD#8]
    = .ok (.decodeW 0xC8#8 0x12#8 0x34#8 0xDF#8 0xAB#8 0xCD#8)

/-! ## The command encoder -/

/-- R120, R121, R122, R123: the frames, byte by byte, in plain numbers. -/
def Obligations.EncoderFramesAreBitExact : Prop :=
  ∀ (c : Cfg) (ref : Ref) (gainIn : Byte) (value : Value) (persist : Bool),
    let b0 := (if persist then c.cmdWriteAll.toNat else 2) * 32 + ref.toNat * 8 +
      (if gainIn.toNat = 0 then 0 else 4)
    (commandFrame c ref (nz gainIn) value persist).map BitVec.toNat =
      match c.variant with
      | .v8 => [b0, value.toNat % 256]
      | .v10 => [b0, value.toNat % 1024 / 4, value.toNat % 4 * 64]
      | .v12 => [b0, value.toNat % 4096 / 16, value.toNat % 16 * 16]

/-- R124: values that agree modulo 2^WIDTH give the same frame. -/
def Obligations.EncoderTruncatesSilently : Prop :=
  ∀ (c : Cfg) (ref : Ref) (gain : Bool) (value value' : Value) (persist : Bool),
    value.toNat % 2 ^ width c.variant = value'.toNat % 2 ^ width c.variant →
    commandFrame c ref gain value persist = commandFrame c ref gain value' persist

/-- R126 (its inverse is R88): extracting the value bits of an encoded frame gives the value modulo 2^WIDTH, so
an in-range value comes back exactly. -/
def Obligations.ExtractInvertsEncoderInRange : Prop :=
  ∀ (c : Cfg) (ref : Ref) (gain : Bool) (value : Value) (persist : Bool),
    ∃ x, extractValue c.variant (commandFrame c ref gain value persist) = some x ∧
      x.toNat = value.toNat % 2 ^ width c.variant ∧
      (value.toNat ≤ vmax c.variant → x = value)

/-- R126: the encoder is injective on the persist flag, the reference, the gain bit and the value modulo
2^WIDTH, provided the two selectors differ. -/
def Obligations.EncoderIsInjective : Prop :=
  ∀ (c : Cfg) (ref ref' : Ref) (gain gain' : Bool) (value value' : Value) (persist persist' : Bool),
    c.cmdWriteAll ≠ 2#3 →
    commandFrame c ref gain value persist = commandFrame c ref' gain' value' persist' →
    persist = persist' ∧ ref = ref' ∧ gain = gain' ∧
      value.toNat % 2 ^ width c.variant = value'.toNat % 2 ^ width c.variant

/-- R24, R125: only whether the gain operand is zero matters, in every operation that has one. Zero stays 0, every other
value becomes 1: in the latch REQ.GAIN; in bit 2 of byte 0 of the frame EXECUTE sends, and of every frame made from a
latched bit, which is what COND_PERSIST sends; and in that bit of the pure encoder's frame (bit 18 of enc_frame, where
R90's port layout puts it, which is decision D2; notes/assumptions/24.md). -/
def Obligations.NonzeroGainIsGainOn : Prop :=
  ∀ (s : State) (p : Bool) (ref : Ref) (g g' : Byte) (v : Value), (g = 0#8 ↔ g' = 0#8) →
    (s.seq = .idle → ∃ t t', exec (.execute p ref g v) s = .next t ∧ exec (.execute p ref g' v) s = .next t' ∧
      t'.req = t.req ∧ t'.outstanding = t.outstanding ∧ (t.req.gain = false ↔ g = 0#8) ∧
      ∃ b0 bs, t.outstanding = some (.write s.cfg.addr (b0 :: bs)) ∧ (b0.toNat / 4 % 2 = 1 ↔ g ≠ 0#8)) ∧
    (s.seq = .idle → ∃ t t', exec (.condPersist ref g v) s = .next t ∧ exec (.condPersist ref g' v) s = .next t' ∧
      t'.req = t.req ∧ t'.outstanding = t.outstanding ∧ (t.req.gain = false ↔ g = 0#8)) ∧
    (∀ gain, ∃ b0 bs, commandFrame s.cfg ref gain v p = b0 :: bs ∧ (b0.toNat / 4 % 2 = 1 ↔ gain = true)) ∧
    exec (.encode8 p ref g v) s = exec (.encode8 p ref g' v) s ∧
    exec (.encode10 p ref g v) s = exec (.encode10 p ref g' v) s ∧
    exec (.encode12 p ref g v) s = exec (.encode12 p ref g' v) s ∧
    (∀ i ∈ [Instr.encode8 p ref g v, .encode10 p ref g v, .encode12 p ref g v], i.fits s.cfg.variant = true →
      ∃ (f : BitVec 24) (n : Nat), exec i s = .next { s with trace := .encPort f n :: s.trace } ∧
        (f.toNat / 2 ^ 18 % 2 = 1 ↔ g ≠ 0#8))

/-- ENCODE.8, ENCODE.10, ENCODE.12 complete on an instance of their variant: the frame of R120 to R123 appears
on the encoder port (its layout is decision D2: byte 0 in bits 23:16, byte 2 zero for V8) with its length, and
nothing else changes: no register, no transaction, no clock sample. -/
def Obligations.EncodePortGivesTheFrame : Prop :=
  ∀ (s : State) (p : Bool) (ref : Ref) (g : Byte) (v : Value),
    let b0 := (if p then s.cfg.cmdWriteAll.toNat else 2) * 32 + ref.toNat * 8 +
      (if g.toNat = 0 then 0 else 4)
    (s.cfg.variant = .v8 → ∃ f : BitVec 24,
      exec (.encode8 p ref g v) s = .next { s with trace := .encPort f 2 :: s.trace } ∧
      f.toNat = b0 * 65536 + v.toNat % 256 * 256) ∧
    (s.cfg.variant = .v10 → ∃ f : BitVec 24,
      exec (.encode10 p ref g v) s = .next { s with trace := .encPort f 3 :: s.trace } ∧
      f.toNat = b0 * 65536 + v.toNat % 1024 * 64) ∧
    (s.cfg.variant = .v12 → ∃ f : BitVec 24,
      exec (.encode12 p ref g v) s = .next { s with trace := .encPort f 3 :: s.trace } ∧
      f.toNat = b0 * 65536 + v.toNat % 4096 * 16)

/-! ## The status decoder -/

/-- R110: DECODE.N zero-extends each value byte and copies the ConfigStatus bytes whole. -/
def Obligations.NarrowDecodeZeroExtends : Prop :=
  ∀ s0 s1 s2 s3 : Byte,
    let d := statusOfNarrow s0 s1 s2 s3
    d.vcfg = s0 ∧ d.vval.toNat = s1.toNat ∧ d.nvcfg = s2 ∧ d.nvval.toNat = s3.toNat

/-- R111: DECODE.W reads each value big-endian, nothing masked. -/
def Obligations.WideDecodeIsBigEndian : Prop :=
  ∀ s0 s1 s2 s3 s4 s5 : Byte,
    let d := statusOfWide s0 s1 s2 s3 s4 s5
    d.vcfg = s0 ∧ d.vval.toNat = s1.toNat * 256 + s2.toNat ∧
    d.nvcfg = s3 ∧ d.nvval.toNat = s4.toNat * 256 + s5.toNat

/-- R114: a status frame of the right length always decodes, its ConfigStatus bytes come out as bytes 0 and 2 (V8) or 0
and 3 (V10, V12) of the frame, and re-packing the six fields of any such byte gives the byte back. -/
def Obligations.StatusDecodeKeepsConfigBytes : Prop :=
  (∀ c : Byte, packConfig (rdy c) (por c) (unusedBit c) (vref c) (pd c) (gainFlag c) = c) ∧
  ∀ (c : Cfg) (frame : List Byte), frame.length = statusLen c.variant →
    (c.variant = .v8 → ∃ s0 s1 s2 s3, decode c .status frame = .ok (.statusN s0 s1 s2 s3) ∧
      some (statusOfNarrow s0 s1 s2 s3).vcfg = frame[0]? ∧
      some (statusOfNarrow s0 s1 s2 s3).nvcfg = frame[2]?) ∧
    (c.variant = .v10 ∨ c.variant = .v12 →
      ∃ s0 s1 s2 s3 s4 s5, decode c .status frame = .ok (.statusW s0 s1 s2 s3 s4 s5) ∧
      some (statusOfWide s0 s1 s2 s3 s4 s5).vcfg = frame[0]? ∧
      some (statusOfWide s0 s1 s2 s3 s4 s5).nvcfg = frame[3]?)

/-- R112: DECODE.N is injective and DECODE.W is a bijection between six-byte frames and records. -/
def Obligations.DecodersLoseNothing : Prop :=
  (∀ a0 a1 a2 a3 b0 b1 b2 b3 : Byte,
    statusOfNarrow a0 a1 a2 a3 = statusOfNarrow b0 b1 b2 b3 → [a0, a1, a2, a3] = [b0, b1, b2, b3]) ∧
  (∀ a0 a1 a2 a3 a4 a5 b0 b1 b2 b3 b4 b5 : Byte,
    statusOfWide a0 a1 a2 a3 a4 a5 = statusOfWide b0 b1 b2 b3 b4 b5 →
      [a0, a1, a2, a3, a4, a5] = [b0, b1, b2, b3, b4, b5]) ∧
  (∀ d : DeviceStatus, ∃ s0 s1 s2 s3 s4 s5, statusOfWide s0 s1 s2 s3 s4 s5 = d)

/-- DECODE.N and DECODE.W complete on an instance of their variant: the record of R110 or R111 appears on the
decoder port (layout: decision D2) and nothing else changes (R115). -/
def Obligations.DecodePortGivesTheRecord : Prop :=
  ∀ (s : State) (s0 s1 s2 s3 s4 s5 : Byte),
    (s.cfg.variant = .v8 → ∃ d : BitVec 48,
      exec (.decodeN s0 s1 s2 s3) s = .next { s with trace := .decPort d :: s.trace } ∧
      d.toNat = s0.toNat * 2 ^ 40 + s1.toNat * 2 ^ 24 + s2.toNat * 2 ^ 16 + s3.toNat) ∧
    (s.cfg.variant = .v10 ∨ s.cfg.variant = .v12 → ∃ d : BitVec 48,
      exec (.decodeW s0 s1 s2 s3 s4 s5) s = .next { s with trace := .decPort d :: s.trace } ∧
      d.toNat = s0.toNat * 2 ^ 40 + s1.toNat * 2 ^ 32 + s2.toNat * 2 ^ 24 +
        s3.toNat * 2 ^ 16 + s4.toNat * 2 ^ 8 + s5.toNat)

/-! ## Acceptance -/

/-- STATUS_READ in IDLE is accepted: REQ.OP is latched, one read of STATUS_LEN bytes is issued to CFG.ADDR, and
nothing else changes: no write, no clock sample, no other latch (R130, R131; decisions D2, D13, D15). -/
def Obligations.StatusReadIsAccepted : Prop :=
  ∀ s : State, s.seq = .idle →
    let n := if s.cfg.variant = .v8 then 4 else 6
    exec .statusRead s = .next { s with
      req := { s.req with op := .statusRead }
      seq := .srRead
      outstanding := some (.read s.cfg.addr n)
      trace := .trReq s.cfg.addr n :: .hostReq .statusRead :: s.trace }

/-- EXECUTE in IDLE is accepted: the operands are latched with the gain normalised and the value untruncated,
the clock is sampled into T0, then the encoded frame goes out as one write to CFG.ADDR, and nothing else
changes (R130, R132; decisions D2, D9). The sample is the next one the environment lists, or a free value. -/
def Obligations.ExecuteIsAccepted : Prop :=
  ∀ (s : State) (p : Bool) (ref : Ref) (g : Byte) (v : Value), s.seq = .idle →
    ∃ now, now < 2 ^ s.cfg.clockW ∧ (∀ t ts, s.clockIn = t :: ts → now = t % 2 ^ s.cfg.clockW) ∧
      let frame := commandFrame s.cfg ref (decide (g.toNat ≠ 0)) v p
      exec (.execute p ref g v) s = .next { s with
        req := { op := .execute, ref := ref, gain := decide (g.toNat ≠ 0), value := v, persist := p }
        t0 := now
        seq := .wrPend
        outstanding := some (.write s.cfg.addr frame)
        clockIn := s.clockIn.tail
        draws := s.draws + 1
        trace := .twReq s.cfg.addr frame :: .now now :: .hostReq (.execute p ref g v) :: s.trace }

/-- R138: COND_PERSIST in IDLE latches its operands with persist forced to 1, issues one status read and waits
in CP_READ; no clock sample is taken and nothing else changes. -/
def Obligations.CondPersistReadsFirst : Prop :=
  ∀ (s : State) (ref : Ref) (g : Byte) (v : Value), s.seq = .idle →
    let n := if s.cfg.variant = .v8 then 4 else 6
    exec (.condPersist ref g v) s = .next { s with
      req := { op := .condPersist, ref := ref, gain := decide (g.toNat ≠ 0), value := v, persist := true }
      seq := .cpRead
      outstanding := some (.read s.cfg.addr n)
      trace := .trReq s.cfg.addr n :: .hostReq (.condPersist ref g v) :: s.trace }

/-- A request outside IDLE has no step: the state is what it was, the request is not remembered and the
operation in progress cannot be cut short (R130, R145; decision D13; notes/assumptions/10.md). -/
def Obligations.BusyRequestsAreNotAccepted : Prop :=
  ∀ (s : State) (p : Bool) (ref : Ref) (g : Byte) (v : Value), s.seq ≠ .idle →
    exec .statusRead s = .next s ∧ exec (.execute p ref g v) s = .next s ∧
    exec (.condPersist ref g v) s = .next s

/-! ## Write completion -/

/-- R133, for WRVOL.8, WRVOL.10, WRVOL.12, WRALL.8, WRALL.10 and WRALL.12: when the write that carries the frame
completes, a non-zero status makes RES.OK 0 and ends the operation; status 0 makes RES.OK 1 and ends it unless
REQ.PERSIST is 1, which leads to the poll loop. No read is issued and the write is not repeated: of the block
only RES.OK, SEQ and the outstanding transaction change. -/
def Obligations.WriteCompletionFollowsStatus : Prop :=
  ∀ (s : State) (i : Instr), i.port = .command → i.fits s.cfg.variant = true → s.seq = .wrPend →
    s.outstanding = some (.write s.cfg.addr (encode s.cfg i)) →
    ∃ dev n, exec i s = .next { s with
      res := { s.res with ok := decide (s.twStatus.toNat = 0) }
      seq := if s.twStatus.toNat = 0 ∧ s.req.persist = true then .transactionSent else .done
      outstanding := none
      trace := .twRsp s.twStatus :: s.trace
      device := dev
      draws := n }

/-- What a delivered frame does to the device (R57, read off the commands' names, and R65; notes/assumptions/13.md,
DEDUCED; the chip is taken to be of CFG.VARIANT, also there): with status 0, no non-volatile write in progress and no
write of before a reset still under way, WRVOL.x sets the volatile settings and touches nothing else there; WRALL.x sets them too and begins a non-volatile write of the same settings. -/
def Obligations.DeliveredFrameSetsTheDevice : Prop :=
  ∀ (s t : State) (i : Instr) (ref : Ref) (gain : Bool) (v : Value), s.twStatus = 0#8 →
    s.device.nvWrite = none → s.lateWrites = [] → i.wf = true → exec i s = .next t →
    (i = .wrvol8 ref gain v ∨ i = .wrvol10 ref gain v ∨ i = .wrvol12 ref gain v →
      t.device = { s.device with vol := { ref := ref, gain := gain, value := v } }) ∧
    (i = .wrall8 ref gain v ∨ i = .wrall10 ref gain v ∨ i = .wrall12 ref gain v →
      t.device.vol = { ref := ref, gain := gain, value := v } ∧
      t.device.nvWrite = some { ref := ref, gain := gain, value := v })

/-- The device's own events (R65, R16 and R176; notes/assumptions/13.md, DEDUCED): when its non-volatile write ends, what it
was storing is stored; when power returns with none in progress, the volatile settings are the non-volatile ones. The
block sees neither: nothing else changes but the count of free values. -/
def Obligations.DeviceStoresAndRestores : Prop :=
  ∀ (s : State) (rest : List Event),
    (∀ x, s.inbox = .nvWriteEnds :: rest → s.device.nvWrite = some x →
      step s = .next { s with inbox := rest, device := { s.device with nv := x, nvWrite := none } }) ∧
    (s.inbox = .devicePowerCycle :: rest → s.device.nvWrite = none → ∃ n,
      step s = .next { s with inbox := rest, draws := n, device := { s.device with vol := s.device.nv } })

/-! ## Status answers -/

/-- R131 and R110, R111: the frame that answers a STATUS_READ is decoded into RES.STATUS, RES.OK becomes 1 and the
operation is done; nothing else changes (decision D15: it cannot fail). STATUS.N on V8, STATUS.W on V10 and V12. That
the device too stays as it is rests on notes/assumptions/22.md (UNVERIFIED: the spec neither affirms nor denies it). -/
def Obligations.StatusReadDeliversTheRecord : Prop :=
  ∀ (s : State) (s0 s1 s2 s3 s4 s5 : Byte), s.seq = .srRead →
    (s.cfg.variant = .v8 → ∃ d : DeviceStatus,
      exec (.statusN s0 s1 s2 s3) s = .next { s with
        res := { ok := true, status := d }
        seq := .done
        outstanding := none
        trace := .trRsp [s0, s1, s2, s3] :: s.trace } ∧
      d.vcfg = s0 ∧ d.vval.toNat = s1.toNat ∧ d.nvcfg = s2 ∧ d.nvval.toNat = s3.toNat) ∧
    (s.cfg.variant = .v10 ∨ s.cfg.variant = .v12 → ∃ d : DeviceStatus,
      exec (.statusW s0 s1 s2 s3 s4 s5) s = .next { s with
        res := { ok := true, status := d }
        seq := .done
        outstanding := none
        trace := .trRsp [s0, s1, s2, s3, s4, s5] :: s.trace } ∧
      d.vcfg = s0 ∧ d.vval.toNat = s1.toNat * 256 + s2.toNat ∧
      d.nvcfg = s3 ∧ d.nvval.toNat = s4.toNat * 256 + s5.toNat)

/-- R135: the answer to a poll ends the wait exactly when bit 7 of its first byte is 1, whatever the clock says and
whatever the other bits are; RES.OK and T0 are not touched and the clock is not sampled (decision D23). That the
device too stays as it is rests on notes/assumptions/22.md (UNVERIFIED: the spec neither affirms nor denies it). -/
def Obligations.PollLooksAtReadyBitOnly : Prop :=
  ∀ (s : State) (s0 s1 s2 s3 s4 s5 : Byte), s.seq = .pollRead →
    let next := if 128 ≤ s0.toNat then Seq.pollingReady else Seq.transactionSent
    (s.cfg.variant = .v8 → exec (.statusN s0 s1 s2 s3) s = .next { s with
      res := { s.res with status := statusOfNarrow s0 s1 s2 s3 }
      seq := next
      outstanding := none
      trace := .trRsp [s0, s1, s2, s3] :: s.trace }) ∧
    (s.cfg.variant = .v10 ∨ s.cfg.variant = .v12 → exec (.statusW s0 s1 s2 s3 s4 s5) s = .next { s with
      res := { s.res with status := statusOfWide s0 s1 s2 s3 s4 s5 }
      seq := next
      outstanding := none
      trace := .trRsp [s0, s1, s2, s3, s4, s5] :: s.trace })

/-- R139, STATUS.N: COND_PERSIST compares bits 4:3 and bit 0 of the non-volatile ConfigStatus and the
zero-extended non-volatile value with the latched, untruncated request (decision D17). On a match nothing is
written; otherwise one persisting write of the request starts. The volatile half of the frame has no say. That the
device stays as it is rests on notes/assumptions/22.md (UNVERIFIED); where no clock sample is listed, T0 is the free
value the trace shows (notes/assumptions/8.md). -/
def Obligations.CondPersistComparesNarrow : Prop :=
  ∀ (s : State) (s0 s1 s2 s3 : Byte), s.seq = .cpRead → s.cfg.variant = .v8 →
    let same := s2.toNat / 8 % 4 = s.req.ref.toNat ∧ (s2.toNat % 2 = 1 ↔ s.req.gain = true) ∧
      s3.toNat = s.req.value.toNat
    ∃ t, exec (.statusN s0 s1 s2 s3) s = .next t ∧ t.cfg = s.cfg ∧ t.req = s.req ∧
      t.res.status = statusOfNarrow s0 s1 s2 s3 ∧
      t.inbox = s.inbox ∧ t.device = s.device ∧ t.twStatus = s.twStatus ∧
      (same → t.res.ok = true ∧ t.seq = .done ∧ t.outstanding = none ∧ t.t0 = s.t0 ∧
        t.clockIn = s.clockIn ∧ t.draws = s.draws ∧ t.trace = .trRsp [s0, s1, s2, s3] :: s.trace) ∧
      (¬ same → t.res.ok = s.res.ok ∧ t.seq = .wrPend ∧ t.clockIn = s.clockIn.tail ∧
        t.draws = s.draws + 1 ∧ (∀ x xs, s.clockIn = x :: xs → t.t0 = x % 2 ^ s.cfg.clockW) ∧
        let frame := commandFrame s.cfg s.req.ref s.req.gain s.req.value true
        t.outstanding = some (.write s.cfg.addr frame) ∧
        t.trace = .twReq s.cfg.addr frame :: .now t.t0 :: .trRsp [s0, s1, s2, s3] :: s.trace)

/-- R139, STATUS.W: as for STATUS.N, with the raw 16 bits of the frame's non-volatile value (decision D17). That the
device stays as it is rests on notes/assumptions/22.md (UNVERIFIED); where no clock sample is listed, T0 is the free
value the trace shows (notes/assumptions/8.md). -/
def Obligations.CondPersistComparesWide : Prop :=
  ∀ (s : State) (s0 s1 s2 s3 s4 s5 : Byte), s.seq = .cpRead →
    s.cfg.variant = .v10 ∨ s.cfg.variant = .v12 →
    let same := s3.toNat / 8 % 4 = s.req.ref.toNat ∧ (s3.toNat % 2 = 1 ↔ s.req.gain = true) ∧
      s4.toNat * 256 + s5.toNat = s.req.value.toNat
    ∃ t, exec (.statusW s0 s1 s2 s3 s4 s5) s = .next t ∧ t.cfg = s.cfg ∧ t.req = s.req ∧
      t.res.status = statusOfWide s0 s1 s2 s3 s4 s5 ∧
      t.inbox = s.inbox ∧ t.device = s.device ∧ t.twStatus = s.twStatus ∧
      (same → t.res.ok = true ∧ t.seq = .done ∧ t.outstanding = none ∧ t.t0 = s.t0 ∧
        t.clockIn = s.clockIn ∧ t.draws = s.draws ∧
        t.trace = .trRsp [s0, s1, s2, s3, s4, s5] :: s.trace) ∧
      (¬ same → t.res.ok = s.res.ok ∧ t.seq = .wrPend ∧ t.clockIn = s.clockIn.tail ∧
        t.draws = s.draws + 1 ∧ (∀ x xs, s.clockIn = x :: xs → t.t0 = x % 2 ^ s.cfg.clockW) ∧
        let frame := commandFrame s.cfg s.req.ref s.req.gain s.req.value true
        t.outstanding = some (.write s.cfg.addr frame) ∧
        t.trace = .twReq s.cfg.addr frame :: .now t.t0 :: .trRsp [s0, s1, s2, s3, s4, s5] :: s.trace)

/-! ## The block's own steps -/

/-- R134 (decisions D8, D16): in TRANSACTION_SENT the block samples the clock and, if 100 ms or more have passed
since T0 on the CLOCK_W-bit counter, ends the wait without a read; otherwise it issues one status read. -/
def Obligations.TimeoutIsTestedBeforeEveryPoll : Prop :=
  ∀ (s : State) (now : Nat) (later : List Nat), s.seq = .transactionSent → s.inbox = [] →
    s.clockIn = now :: later →
    let n := if s.cfg.variant = .v8 then 4 else 6
    let stamp := now % 2 ^ s.cfg.clockW
    (100 ≤ msSince s.cfg.clockW s.t0 now → step s = .next { s with
      seq := .pollingTimedOut
      clockIn := later
      draws := s.draws + 1
      trace := .now stamp :: s.trace }) ∧
    (msSince s.cfg.clockW s.t0 now < 100 → step s = .next { s with
      seq := .pollRead
      outstanding := some (.read s.cfg.addr n)
      clockIn := later
      draws := s.draws + 1
      trace := .trReq s.cfg.addr n :: .now stamp :: s.trace })

/-- R141 (width: decision D7): the modular difference of two samples is the true elapsed time whenever that is
below 2^CLOCK_W, wherever in the counter's range the first sample fell, so it is right across a wrap. -/
def Obligations.ElapsedTimeSurvivesWrap : Prop :=
  ∀ w start duration : Nat, duration < 2 ^ w →
    elapsed w ((start + duration) % 2 ^ w) (start % 2 ^ w) = duration

/-- R136 (decision D14): POLLING_READY and POLLING_TIMED_OUT change nothing but SEQ; the step out of DONE gives
one result, with the 48-bit record only after STATUS_READ, and returns to IDLE. -/
def Obligations.OperationEndsWithOneResult : Prop :=
  ∀ s : State, s.inbox = [] →
    (s.seq = .pollingReady ∨ s.seq = .pollingTimedOut → step s = .next { s with seq := .done }) ∧
    (s.seq = .done → s.req.op ≠ .statusRead →
      step s = .next { s with seq := .idle, trace := .hostRsp s.res.ok none :: s.trace }) ∧
    (s.seq = .done → s.req.op = .statusRead → ∃ x : BitVec 48,
      step s = .next { s with seq := .idle, trace := .hostRsp s.res.ok (some x) :: s.trace } ∧
      x.toNat = s.res.status.vcfg.toNat * 2 ^ 40 + s.res.status.vval.toNat * 2 ^ 24 +
        s.res.status.nvcfg.toNat * 2 ^ 16 + s.res.status.nvval.toNat)

/-- Where the block waits, for a request in IDLE or for the transport, nothing happens until an event comes: there
is no timeout on a transaction (R144; notes/assumptions/7.md). -/
def Obligations.WaitingChangesNothing : Prop :=
  ∀ s : State, s.inbox = [] →
    s.seq = .idle ∨ s.seq = .srRead ∨ s.seq = .cpRead ∨ s.seq = .wrPend ∨ s.seq = .pollRead →
    step s = .next s

/-! ## The step -/

/-- A step runs the decoded instruction: the next event is removed from the inbox, a completion status is put on
its lines, the bytes the event presents on its port are decoded for this instance, and step is exec of that
instruction there (notes/assumptions/6.md and 11.md). -/
def Obligations.StepRunsTheDecodedInstruction : Prop :=
  ∀ (s : State) (rest : List Event) (i : Instr),
    let s' := { s with inbox := rest }
    (∀ w, s.inbox = .request w :: rest →
      decode s.cfg .request (bytes32 w) = .ok i → step s = exec i s') ∧
    (∀ w, s.inbox = .encodePort w :: rest →
      decode s.cfg .encodePort (bytes32 (w.setWidth 32)) = .ok i → step s = exec i s') ∧
    (∀ f, s.inbox = .decodePort f :: rest →
      decode s.cfg .decodePort (bytes48 f) = .ok i → step s = exec i s') ∧
    (∀ frame, s.inbox = .readDone frame :: rest →
      decode s.cfg .status frame = .ok i → step s = exec i s') ∧
    (∀ st addr frame, s.inbox = .writeDone st :: rest → s.outstanding = some (.write addr frame) →
      decode s.cfg .command frame = .ok i → step s = exec i { s' with twStatus := st })

/-- A request word with bits 31:30 = 00 is not a request: no step, nothing remembered, in any state (R130, R92). -/
def Obligations.NoOperationHasNoStep : Prop :=
  ∀ (s : State) (w : BitVec 32) (rest : List Event), s.inbox = .request w :: rest →
    w.toNat < 2 ^ 30 → step s = .next { s with inbox := rest }

/-- R190 (decision D12): a late answer finds SEQ = IDLE and is dropped, a frame of whatever length too: no register of
the block changes and nothing is sent or presented. The model's own choices: a late status still drives the lines
twStatus, which no step in IDLE reads (notes/assumptions/9.md and 18.md), and it ends the oldest write that a reset
abandoned: the device is then what lateTakes makes of its frame and the status, four free values being drawn
(notes/assumptions/26.md). -/
def Obligations.LateAnswersAreDroppedInIdle : Prop :=
  ∀ (s : State) (rest : List Event), s.seq = .idle → s.outstanding = none →
    (∀ st, s.inbox = .writeDone st :: rest → s.lateWrites = [] →
      step s = .next { s with inbox := rest, twStatus := st }) ∧
    (∀ st w ws, s.inbox = .writeDone st :: rest → s.lateWrites = w :: ws →
      step s = .next { s with
        inbox := rest
        twStatus := st
        lateWrites := ws
        device := lateTakes w (st == 0#8) s.draws s.device
        draws := s.draws + 4 }) ∧
    (∀ frame, s.inbox = .readDone frame :: rest → step s = .next { s with inbox := rest })

/-- Where the model stops, by name, and in each case outside the spec's domain (treatment refuse): the operations of one
variant on an instance of another (R94, R121 and U1; notes/assumptions/15.md), a command frame that is not the
outstanding write (R60; notes/assumptions/11.md), outside IDLE a status frame of the wrong length (R113 and U1;
notes/assumptions/15.md), outside IDLE a status frame or a completion status that nobody awaits (U16;
notes/assumptions/9.md), a construction that is not admitted (R85, U7; notes/assumptions/23.md). -/
def Obligations.RefusalsAreTheseByName : Prop :=
  (∀ (s : State) (i : Instr), i.fits s.cfg.variant = false → exec i s = .refused .variantMismatch) ∧
  (∀ (s : State) (i : Instr), i.port = .command → i.fits s.cfg.variant = true →
    s.seq ≠ .wrPend ∨ s.outstanding ≠ some (.write s.cfg.addr (encode s.cfg i)) →
    exec i s = .refused .frameNotOutstanding) ∧
  (∀ (s : State) (frame : List Byte) (rest : List Event), s.inbox = .readDone frame :: rest → s.seq ≠ .idle →
    frame.length ≠ statusLen s.cfg.variant → step s = .refused (.noSuchFrame .frameLength)) ∧
  (∀ (s : State) (frame : List Byte) (rest : List Event), s.inbox = .readDone frame :: rest →
    frame.length = statusLen s.cfg.variant →
    s.seq = .wrPend ∨ s.seq = .transactionSent ∨ s.seq = .pollingReady ∨ s.seq = .pollingTimedOut ∨
      s.seq = .done → step s = .refused .answerNotAwaited) ∧
  (∀ (s : State) (st : Byte) (rest : List Event), s.inbox = .writeDone st :: rest → s.seq ≠ .idle →
    (∀ addr frame, s.outstanding ≠ some (.write addr frame)) → step s = .refused .answerNotAwaited) ∧
  (∀ (s : State) (c : Cfg) (rest : List Event), s.inbox = .reset c :: rest →
    c.cmdWriteAll = 2#3 ∨ c.clockW < 7 → step s = .refused .illegalConstruction)

/-! ## Reset -/

/-- R34: after reset SEQ is IDLE, nothing is outstanding, nothing is presented to the host, and no transaction was
issued. (What the other registers hold is the model's choice, notes/assumptions/2.md, and is not stated.) -/
def Obligations.ResetLeavesIdleAndSilent : Prop :=
  State.reset.seq = .idle ∧ State.reset.outstanding = none ∧ State.reset.trace = [] ∧
  State.reset.inbox = []

/-- R190 (decision D12): a reset at any time, with admitted parameters, gives CFG the supplied values, puts SEQ in
IDLE and abandons the operation: no result, no transaction; the device keeps what the frames did to it. A write that
was outstanding is not recalled (that it is kept in lateWrites, and read no more there: notes/assumptions/26.md). -/
def Obligations.ResetAbandonsTheOperation : Prop :=
  ∀ (s : State) (c : Cfg) (rest : List Event), s.inbox = .reset c :: rest → c.wf = true →
    ∃ t, step s = .next t ∧ t.cfg = c ∧ t.seq = .idle ∧ t.outstanding = none ∧
      t.trace = .reset :: s.trace ∧ t.device = s.device ∧ t.inbox = rest ∧ t.clockIn = s.clockIn ∧
      t.twStatus = s.twStatus ∧
      (∀ addr frame, s.outstanding = some (.write addr frame) →
        t.lateWrites = s.lateWrites ++ [{ cfg := s.cfg, frame := frame }]) ∧
      ((∀ addr frame, s.outstanding ≠ some (.write addr frame)) → t.lateWrites = s.lateWrites)

/-! ## Whole-machine rules -/

/-- The invariant holds at reset. -/
def Obligations.InvariantHoldsAtReset : Prop := BlockInv State.reset ∧ Paired State.reset ∧ okTellsStatus State.reset

/-- Every step keeps the invariant: an admitted configuration, T0 a CLOCK_W-bit number, exactly the transaction the
sequencer waits for outstanding (R60), the latches those of the operation in progress (R35). -/
def Obligations.StepKeepsInvariant : Prop :=
  ∀ s t : State, BlockInv s → step s = .next t → BlockInv t

/-- Every step keeps the pairing: each accepted request gets exactly one result before the next is accepted (R130,
R136, R168) and each transaction exactly one answer before the next is issued (R60). Both counts are integers, so a
second result or a second answer would show as a count below what the state asks for. -/
def Obligations.StepKeepsPairing : Prop :=
  ∀ s t : State, BlockInv s → Paired s → step s = .next t → Paired t

/-- R137: the result of a write operation says whether the write's completion status was zero, and nothing else: a
readiness timeout does not show in it. That no status record goes with it that could show it is decision D14. The
clause on ok covers STATUS_READ and a COND_PERSIST that matches as well, which make no write: there ok is 1 (decision
D15; R139). (For D14 and D15: notes/assumptions/24.md.) Kept by every step, and every result given obeys it. -/
def Obligations.ResultTellsWriteStatusOnly : Prop :=
  ∀ s t : State, BlockInv s → okTellsStatus s → step s = .next t →
    okTellsStatus t ∧
    ∀ ok st, t.trace = .hostRsp ok st :: s.trace →
      (ok = true ↔ ∀ x, writeStatus s.trace = some x → x = 0#8) ∧
      (s.req.op ≠ .statusRead → st = none)

/-- From a state of the invariant, whatever permitted event comes next, the step answers a next state: no operand, no
frame content, no status and no clock sample ends a run (R92, R112, R127, R164). -/
def Obligations.PermittedEventsNeverStop : Prop :=
  ∀ s : State, BlockInv s → (∀ e rest, s.inbox = e :: rest → Permitted s e) → ∃ t, step s = .next t

/-- R140: SEQ changes only along the rows of the transition table, or to IDLE by a reset. -/
def Obligations.SequencerFollowsTheTable : Prop :=
  ∀ s t : State, step s = .next t →
    t.seq = s.seq ∨ seqEdge s.seq t.seq = true ∨ (resetNext s = true ∧ t.seq = .idle)

/-- No operation writes the configuration: only a reset supplies a new one (R20, R22, R170). -/
def Obligations.ConfigurationIsImmutable : Prop :=
  ∀ s t : State, step s = .next t → resetNext s = false → t.cfg = s.cfg

/-- Once the write has completed, nothing later in the operation changes RES.OK (R133), and the poll loop changes
neither a latch nor T0. -/
def Obligations.ResultIsFinalAfterTheWrite : Prop :=
  ∀ s t : State, step s = .next t → resetNext s = false →
    s.seq = .transactionSent ∨ s.seq = .pollRead ∨ s.seq = .pollingReady ∨ s.seq = .pollingTimedOut ∨
      s.seq = .done →
    t.res.ok = s.res.ok ∧ t.req = s.req ∧ t.t0 = s.t0

/-- The interface history only grows, and every transaction a step adds goes to CFG.ADDR with the variant's frame
length, every clock sample is a CLOCK_W-bit number (R50, R53, R56). -/
def Obligations.StepsAddAdmittedEventsOnly : Prop :=
  ∀ s t : State, step s = .next t → ∃ new, t.trace = new ++ s.trace ∧ ∀ o ∈ new, obsAdmitted s.cfg o

/-- The block issues a transaction only when none is outstanding (R60): either none was, or the first thing the
step did was to take its answer. -/
def Obligations.OneTransactionAtATime : Prop :=
  ∀ s t : State, BlockInv s → step s = .next t →
    ∀ new, t.trace = new ++ s.trace → (∃ o ∈ new, isWrite o = true ∨ isRead o = true) →
      s.outstanding = none ∨ ∃ frame, new.getLast? = some (.trRsp frame)

/-- R32 (and R35): nothing but the configuration is carried from one operation to the next. Two states that agree but for
dead registers (in IDLE: all of REQ, T0 and RES) and whatever stands outside the block (the device, the observations so
far) run alike: with equal requests, answers and clock samples they ADD equal observations, so equal transactions and
results, and where one stops the other does. Two IDLE states after different operations are such states. The samples
must be listed, at least one for each step; one that is not listed is a free value (notes/assumptions/8.md). -/
def Obligations.OperationsShareNothing : Prop :=
  ∀ (n : Nat) (s t : State), BlockInv s → BlockInv t → SameLive s t → n ≤ s.clockIn.length →
    (∀ s', Host.Core.run Sys2Proof.core n s = .next s' →
      ∃ t' new, Host.Core.run Sys2Proof.core n t = .next t' ∧ SameLive s' t' ∧
        s'.trace = new ++ s.trace ∧ t'.trace = new ++ t.trace) ∧
    (∀ r, Host.Core.run Sys2Proof.core n s = .refused r → Host.Core.run Sys2Proof.core n t = .refused r)

/-! ## Whole operations -/

/-- R142, R161: EXECUTE with the write answered, where no poll follows (persist = 0, or a non-zero status): three
steps from IDLE to IDLE, one write, no read, one clock sample, and the result is 1 exactly when the status is 0. -/
def Obligations.WriteWithoutPollTakesThreeSteps : Prop :=
  ∀ (s : State) (w : BitVec 32) (p : Bool) (ref : Ref) (g : Byte) (v : Value) (st : Byte)
    (rest : List Event), BlockInv s → s.seq = .idle →
    decode s.cfg .request (bytes32 w) = .ok (.execute p ref g v) →
    p = false ∨ st ≠ 0#8 →
    s.inbox = .request w :: .writeDone st :: .tick :: rest →
    ∃ t new, Host.Core.run Sys2Proof.core 3 s = .next t ∧ t.seq = .idle ∧ t.outstanding = none ∧
      t.inbox = rest ∧ t.trace = .hostRsp (decide (st = 0#8)) none :: new ++ s.trace ∧
      counts new = (1, 0, 1)

/-- R142, R139: COND_PERSIST whose request the device already stores: three steps, no write at all, one read, no
clock sample, result 1. -/
def Obligations.MatchingCondPersistWritesNothing : Prop :=
  ∀ (s : State) (w : BitVec 32) (ref : Ref) (g : Byte) (v : Value) (frame : List Byte)
    (rest : List Event) (d : DeviceStatus), BlockInv s → s.seq = .idle →
    decode s.cfg .request (bytes32 w) = .ok (.condPersist ref g v) →
    (∃ a b c e, frame = [a, b, c, e] ∧ s.cfg.variant = .v8 ∧ d = statusOfNarrow a b c e) ∨
      (∃ a b c e f h, frame = [a, b, c, e, f, h] ∧ s.cfg.variant ≠ .v8 ∧ d = statusOfWide a b c e f h) →
    d.nvcfg.toNat / 8 % 4 = ref.toNat → (d.nvcfg.toNat % 2 = 1 ↔ g ≠ 0#8) → d.nvval = v →
    s.inbox = .request w :: .readDone frame :: .tick :: rest →
    ∃ t new, Host.Core.run Sys2Proof.core 3 s = .next t ∧ t.seq = .idle ∧ t.outstanding = none ∧
      t.inbox = rest ∧ t.trace = .hostRsp true none :: new ++ s.trace ∧ counts new = (0, 1, 0)

/-- R137, R142, R143: the silent timeout. A persisting EXECUTE whose write succeeds, whose k polls all find the device
busy before 100 ms and whose next sample finds 100 ms or more, ends with result 1 after one write, k reads and
2 + k clock samples (the order of the tests is decision D8). -/
def Obligations.PersistingWriteTimesOutSilently : Prop :=
  ∀ (s : State) (w : BitVec 32) (ref : Ref) (g : Byte) (v : Value) (start last : Nat)
    (times later : List Nat) (frames : List (List Byte)) (rest : List Event), BlockInv s → s.seq = .idle →
    decode s.cfg .request (bytes32 w) = .ok (.execute true ref g v) →
    (∀ f ∈ frames, answersReady s.cfg.variant false f) → times.length = frames.length →
    (∀ t ∈ times, msSince s.cfg.clockW start t < 100) → 100 ≤ msSince s.cfg.clockW start last →
    s.clockIn = start :: times ++ last :: later →
    s.inbox = .request w :: .writeDone 0#8 :: pollScript frames ++ .tick :: .tick :: .tick :: rest →
    ∃ t new, Host.Core.run Sys2Proof.core (2 * frames.length + 5) s = .next t ∧ t.seq = .idle ∧
      t.inbox = rest ∧ t.clockIn = later ∧ t.trace = .hostRsp true none :: new ++ s.trace ∧
      counts new = (1, frames.length, frames.length + 2)

/-- R142, R143: the ready ending. The same, but the last poll finds the device ready: result 1 after one write, k reads
and 1 + k clock samples, k counting the last one. The ready bit wins whatever time has passed by then (D23). -/
def Obligations.PersistingWriteEndsReady : Prop :=
  ∀ (s : State) (w : BitVec 32) (ref : Ref) (g : Byte) (v : Value) (start : Nat)
    (times later : List Nat) (frames : List (List Byte)) (final : List Byte) (rest : List Event), BlockInv s →
    s.seq = .idle → decode s.cfg .request (bytes32 w) = .ok (.execute true ref g v) →
    (∀ f ∈ frames, answersReady s.cfg.variant false f) → answersReady s.cfg.variant true final →
    times.length = frames.length + 1 → (∀ t ∈ times, msSince s.cfg.clockW start t < 100) →
    s.clockIn = start :: times ++ later →
    s.inbox = .request w :: .writeDone 0#8 :: pollScript (frames ++ [final]) ++ .tick :: .tick :: rest →
    ∃ t new, Host.Core.run Sys2Proof.core (2 * frames.length + 6) s = .next t ∧ t.seq = .idle ∧
      t.inbox = rest ∧ t.clockIn = later ∧ t.trace = .hostRsp true none :: new ++ s.trace ∧
      counts new = (1, frames.length + 1, frames.length + 2)

/-- R192: result 1 does not mean the non-volatile value is stored. From some idle state, with no non-volatile write in
progress and nothing of before a reset under way, a persisting EXECUTE is accepted, sends its one frame, and ends with
result 1 while the device's non-volatile write of its settings is still in progress: all of it in this run (the device:
notes/assumptions/13.md). -/
def Obligations.SuccessDoesNotMeanStored : Prop :=
  ∃ (s t : State) (n : Nat) (w : BitVec 32) (ref : Ref) (g : Byte) (v : Value) (rest : List Event) (new : List Obs),
    BlockInv s ∧ s.seq = .idle ∧ s.device.nvWrite = none ∧ s.lateWrites = [] ∧
    s.inbox = .request w :: rest ∧ decode s.cfg .request (bytes32 w) = .ok (.execute true ref g v) ∧
    Host.Core.run Sys2Proof.core n s = .next t ∧ t.seq = .idle ∧ t.lateWrites = [] ∧
    t.trace = .hostRsp true none :: new ++ s.trace ∧
    new.getLast? = some (.hostReq (.execute true ref g v)) ∧ (counts new).1 = 1 ∧
    t.device.nvWrite =
      some { ref := ref, gain := decide (g ≠ 0#8), value := truncate s.cfg.variant v }

/-- R190, R57: the frame of a write that was outstanding at a reset still acts. When its status 0 arrives in IDLE, the
device has taken the settings of the abandoned request, whatever instance was built meanwhile, and, if that request
was to persist, has begun its non-volatile write; the block itself is as the reset left it. (That it acts when the
status arrives is the model's choice, notes/assumptions/26.md; the device, 13.md.) -/
def Obligations.AbandonedWriteStillReachesTheDevice : Prop :=
  ∀ (s : State) (c : Cfg) (rest : List Event), BlockInv s → s.seq = .wrPend → c.wf = true →
    s.lateWrites = [] → s.device.nvWrite = none → s.inbox = .reset c :: .writeDone 0#8 :: rest →
    let x : Settings := { ref := s.req.ref, gain := s.req.gain, value := truncate s.cfg.variant s.req.value }
    ∃ t, Host.Core.run Sys2Proof.core 2 s = .next t ∧ t.cfg = c ∧ t.seq = .idle ∧ t.outstanding = none ∧
      t.inbox = rest ∧ t.trace = .reset :: s.trace ∧ t.lateWrites = [] ∧ t.device.vol = x ∧
      (s.req.persist = false → t.device = { s.device with vol := x }) ∧
      (s.req.persist = true → t.device.nvWrite = some x)

/-! ## Infinite runs -/

/-- R144: every operation ends. In every infinite run in which the transport answers every transaction, the clock
advances or the device reports ready, and the block gets its turns (the model's own premise, notes/assumptions/6.md),
the block is in IDLE again after every step. -/
def Obligations.OperationsEndUnderFairness : Prop :=
  ∀ r : Nat → State, IsRun r → BlockInv (r 0) → TransportAnswers r → ClockAdvances r → BlockGetsTurns r →
    ∀ n, ∃ m, n ≤ m ∧ (r m).seq = .idle

/-- R144: a clock that never advances with a device that never reports ready is an infinite run, although every
transaction is answered and the block gets its turns. Such a run goes on from every state before a timeout test that
has nothing listed: for ever in the poll loop, every sample equal to T0, with a further status read after every step. -/
def Obligations.StalledClockPollsForEver : Prop :=
  ∀ s : State, BlockInv s → s.seq = .transactionSent → s.inbox = [] → s.clockIn = [] →
    ∃ r : Nat → State, IsRun r ∧ (∃ events samples, r 0 = receives s events samples) ∧
      TransportAnswers r ∧ BlockGetsTurns r ∧
      (∀ n, inPollLoop (r n) ∧ (r n).cfg = s.cfg ∧ (r n).t0 = s.t0 ∧ (testNext (r n) → clockNow (r n) = s.t0)) ∧
      ∀ k, ∃ m, k ≤ m ∧ testNext (r m) ∧ (r (m + 1)).seq = .pollRead

/-- R144: without (a) the block waits for ever. Where a transaction is outstanding and no event comes, the run in which
nothing ever happens is an infinite run, and a timeout is never tested in it. -/
def Obligations.UnansweredTransactionWaitsForEver : Prop :=
  ∀ s : State, BlockInv s → s.outstanding ≠ none → s.inbox = [] →
    IsRun (fun _ => s) ∧ s.seq ≠ .idle ∧ ¬ testNext s ∧ ¬ TransportAnswers (fun _ => s)
end

