-- ==== Sys2Proof/Laws/State.lean ====
section
/-! SUPPORT. Laws/State.lean: what each shared update leaves in each field of State, one lemma each, so that no
proof unfolds a record update. -/

namespace Sys2Proof.Machine

/-! ### observe -/

@[simp] theorem observe_cfg (o : Obs) (s : State) : (observe o s).cfg = s.cfg := rfl
@[simp] theorem observe_seq (o : Obs) (s : State) : (observe o s).seq = s.seq := rfl
@[simp] theorem observe_req (o : Obs) (s : State) : (observe o s).req = s.req := rfl
@[simp] theorem observe_t0 (o : Obs) (s : State) : (observe o s).t0 = s.t0 := rfl
@[simp] theorem observe_res (o : Obs) (s : State) : (observe o s).res = s.res := rfl
@[simp] theorem observe_outstanding (o : Obs) (s : State) : (observe o s).outstanding = s.outstanding := rfl
@[simp] theorem observe_twStatus (o : Obs) (s : State) : (observe o s).twStatus = s.twStatus := rfl
@[simp] theorem observe_inbox (o : Obs) (s : State) : (observe o s).inbox = s.inbox := rfl
@[simp] theorem observe_clockIn (o : Obs) (s : State) : (observe o s).clockIn = s.clockIn := rfl
@[simp] theorem observe_draws (o : Obs) (s : State) : (observe o s).draws = s.draws := rfl
@[simp] theorem observe_trace (o : Obs) (s : State) : (observe o s).trace = o :: s.trace := rfl
@[simp] theorem observe_device (o : Obs) (s : State) : (observe o s).device = s.device := rfl
@[simp] theorem observe_lateWrites (o : Obs) (s : State) : (observe o s).lateWrites = s.lateWrites := rfl

/-! ### receives -/

@[simp] theorem receives_cfg (s : State) (es : List Event) (ts : List Nat) :
    (receives s es ts).cfg = s.cfg := rfl
@[simp] theorem receives_seq (s : State) (es : List Event) (ts : List Nat) :
    (receives s es ts).seq = s.seq := rfl
@[simp] theorem receives_req (s : State) (es : List Event) (ts : List Nat) :
    (receives s es ts).req = s.req := rfl
@[simp] theorem receives_t0 (s : State) (es : List Event) (ts : List Nat) :
    (receives s es ts).t0 = s.t0 := rfl
@[simp] theorem receives_res (s : State) (es : List Event) (ts : List Nat) :
    (receives s es ts).res = s.res := rfl
@[simp] theorem receives_outstanding (s : State) (es : List Event) (ts : List Nat) :
    (receives s es ts).outstanding = s.outstanding := rfl
@[simp] theorem receives_twStatus (s : State) (es : List Event) (ts : List Nat) :
    (receives s es ts).twStatus = s.twStatus := rfl
@[simp] theorem receives_inbox (s : State) (es : List Event) (ts : List Nat) :
    (receives s es ts).inbox = s.inbox ++ es := rfl
@[simp] theorem receives_clockIn (s : State) (es : List Event) (ts : List Nat) :
    (receives s es ts).clockIn = s.clockIn ++ ts := rfl
@[simp] theorem receives_draws (s : State) (es : List Event) (ts : List Nat) :
    (receives s es ts).draws = s.draws := rfl
@[simp] theorem receives_trace (s : State) (es : List Event) (ts : List Nat) :
    (receives s es ts).trace = s.trace := rfl
@[simp] theorem receives_device (s : State) (es : List Event) (ts : List Nat) :
    (receives s es ts).device = s.device := rfl
@[simp] theorem receives_lateWrites (s : State) (es : List Event) (ts : List Nat) :
    (receives s es ts).lateWrites = s.lateWrites := rfl

/-! ### afterClock -/

@[simp] theorem afterClock_cfg (s : State) : (afterClock s).cfg = s.cfg := rfl
@[simp] theorem afterClock_seq (s : State) : (afterClock s).seq = s.seq := rfl
@[simp] theorem afterClock_req (s : State) : (afterClock s).req = s.req := rfl
@[simp] theorem afterClock_t0 (s : State) : (afterClock s).t0 = s.t0 := rfl
@[simp] theorem afterClock_res (s : State) : (afterClock s).res = s.res := rfl
@[simp] theorem afterClock_outstanding (s : State) : (afterClock s).outstanding = s.outstanding := rfl
@[simp] theorem afterClock_twStatus (s : State) : (afterClock s).twStatus = s.twStatus := rfl
@[simp] theorem afterClock_inbox (s : State) : (afterClock s).inbox = s.inbox := rfl
@[simp] theorem afterClock_clockIn (s : State) : (afterClock s).clockIn = s.clockIn.tail := rfl
@[simp] theorem afterClock_draws (s : State) : (afterClock s).draws = s.draws + 1 := rfl
@[simp] theorem afterClock_trace (s : State) : (afterClock s).trace = .now (clockNow s) :: s.trace := rfl
@[simp] theorem afterClock_device (s : State) : (afterClock s).device = s.device := rfl
@[simp] theorem afterClock_lateWrites (s : State) : (afterClock s).lateWrites = s.lateWrites := rfl

/-! ### issueRead -/

@[simp] theorem issueRead_cfg (q : Seq) (s : State) : (issueRead q s).cfg = s.cfg := rfl
@[simp] theorem issueRead_seq (q : Seq) (s : State) : (issueRead q s).seq = q := rfl
@[simp] theorem issueRead_req (q : Seq) (s : State) : (issueRead q s).req = s.req := rfl
@[simp] theorem issueRead_t0 (q : Seq) (s : State) : (issueRead q s).t0 = s.t0 := rfl
@[simp] theorem issueRead_res (q : Seq) (s : State) : (issueRead q s).res = s.res := rfl
@[simp] theorem issueRead_outstanding (q : Seq) (s : State) :
    (issueRead q s).outstanding = some (.read s.cfg.addr (statusLen s.cfg.variant)) := rfl
@[simp] theorem issueRead_twStatus (q : Seq) (s : State) : (issueRead q s).twStatus = s.twStatus := rfl
@[simp] theorem issueRead_inbox (q : Seq) (s : State) : (issueRead q s).inbox = s.inbox := rfl
@[simp] theorem issueRead_clockIn (q : Seq) (s : State) : (issueRead q s).clockIn = s.clockIn := rfl
@[simp] theorem issueRead_draws (q : Seq) (s : State) : (issueRead q s).draws = s.draws := rfl
@[simp] theorem issueRead_trace (q : Seq) (s : State) :
    (issueRead q s).trace = .trReq s.cfg.addr (statusLen s.cfg.variant) :: s.trace := rfl
@[simp] theorem issueRead_device (q : Seq) (s : State) : (issueRead q s).device = s.device := rfl
@[simp] theorem issueRead_lateWrites (q : Seq) (s : State) : (issueRead q s).lateWrites = s.lateWrites := rfl

/-! ### issueWrite -/

@[simp] theorem issueWrite_cfg (f : List Byte) (s : State) : (issueWrite f s).cfg = s.cfg := rfl
@[simp] theorem issueWrite_seq (f : List Byte) (s : State) : (issueWrite f s).seq = .wrPend := rfl
@[simp] theorem issueWrite_req (f : List Byte) (s : State) : (issueWrite f s).req = s.req := rfl
@[simp] theorem issueWrite_t0 (f : List Byte) (s : State) : (issueWrite f s).t0 = s.t0 := rfl
@[simp] theorem issueWrite_res (f : List Byte) (s : State) : (issueWrite f s).res = s.res := rfl
@[simp] theorem issueWrite_outstanding (f : List Byte) (s : State) :
    (issueWrite f s).outstanding = some (.write s.cfg.addr f) := rfl
@[simp] theorem issueWrite_twStatus (f : List Byte) (s : State) : (issueWrite f s).twStatus = s.twStatus := rfl
@[simp] theorem issueWrite_inbox (f : List Byte) (s : State) : (issueWrite f s).inbox = s.inbox := rfl
@[simp] theorem issueWrite_clockIn (f : List Byte) (s : State) : (issueWrite f s).clockIn = s.clockIn := rfl
@[simp] theorem issueWrite_draws (f : List Byte) (s : State) : (issueWrite f s).draws = s.draws := rfl
@[simp] theorem issueWrite_trace (f : List Byte) (s : State) :
    (issueWrite f s).trace = .twReq s.cfg.addr f :: s.trace := rfl
@[simp] theorem issueWrite_device (f : List Byte) (s : State) : (issueWrite f s).device = s.device := rfl
@[simp] theorem issueWrite_lateWrites (f : List Byte) (s : State) :
    (issueWrite f s).lateWrites = s.lateWrites := rfl

/-! ### closeTransaction -/

@[simp] theorem closeTransaction_cfg (o : Obs) (s : State) : (closeTransaction o s).cfg = s.cfg := rfl
@[simp] theorem closeTransaction_seq (o : Obs) (s : State) : (closeTransaction o s).seq = s.seq := rfl
@[simp] theorem closeTransaction_req (o : Obs) (s : State) : (closeTransaction o s).req = s.req := rfl
@[simp] theorem closeTransaction_t0 (o : Obs) (s : State) : (closeTransaction o s).t0 = s.t0 := rfl
@[simp] theorem closeTransaction_res (o : Obs) (s : State) : (closeTransaction o s).res = s.res := rfl
@[simp] theorem closeTransaction_outstanding (o : Obs) (s : State) :
    (closeTransaction o s).outstanding = none := rfl
@[simp] theorem closeTransaction_twStatus (o : Obs) (s : State) :
    (closeTransaction o s).twStatus = s.twStatus := rfl
@[simp] theorem closeTransaction_inbox (o : Obs) (s : State) : (closeTransaction o s).inbox = s.inbox := rfl
@[simp] theorem closeTransaction_clockIn (o : Obs) (s : State) :
    (closeTransaction o s).clockIn = s.clockIn := rfl
@[simp] theorem closeTransaction_draws (o : Obs) (s : State) : (closeTransaction o s).draws = s.draws := rfl
@[simp] theorem closeTransaction_trace (o : Obs) (s : State) :
    (closeTransaction o s).trace = o :: s.trace := rfl
@[simp] theorem closeTransaction_device (o : Obs) (s : State) : (closeTransaction o s).device = s.device := rfl
@[simp] theorem closeTransaction_lateWrites (o : Obs) (s : State) :
    (closeTransaction o s).lateWrites = s.lateWrites := rfl

/-! ### setOk -/

@[simp] theorem setOk_cfg (b : Bool) (q : Seq) (s : State) : (setOk b q s).cfg = s.cfg := rfl
@[simp] theorem setOk_seq (b : Bool) (q : Seq) (s : State) : (setOk b q s).seq = q := rfl
@[simp] theorem setOk_req (b : Bool) (q : Seq) (s : State) : (setOk b q s).req = s.req := rfl
@[simp] theorem setOk_t0 (b : Bool) (q : Seq) (s : State) : (setOk b q s).t0 = s.t0 := rfl
@[simp] theorem setOk_res (b : Bool) (q : Seq) (s : State) : (setOk b q s).res = { s.res with ok := b } := rfl
@[simp] theorem setOk_outstanding (b : Bool) (q : Seq) (s : State) :
    (setOk b q s).outstanding = s.outstanding := rfl
@[simp] theorem setOk_twStatus (b : Bool) (q : Seq) (s : State) : (setOk b q s).twStatus = s.twStatus := rfl
@[simp] theorem setOk_inbox (b : Bool) (q : Seq) (s : State) : (setOk b q s).inbox = s.inbox := rfl
@[simp] theorem setOk_clockIn (b : Bool) (q : Seq) (s : State) : (setOk b q s).clockIn = s.clockIn := rfl
@[simp] theorem setOk_draws (b : Bool) (q : Seq) (s : State) : (setOk b q s).draws = s.draws := rfl
@[simp] theorem setOk_trace (b : Bool) (q : Seq) (s : State) : (setOk b q s).trace = s.trace := rfl
@[simp] theorem setOk_device (b : Bool) (q : Seq) (s : State) : (setOk b q s).device = s.device := rfl
@[simp] theorem setOk_lateWrites (b : Bool) (q : Seq) (s : State) :
    (setOk b q s).lateWrites = s.lateWrites := rfl

/-! ### setStatus -/

@[simp] theorem setStatus_cfg (d : DeviceStatus) (s : State) : (setStatus d s).cfg = s.cfg := rfl
@[simp] theorem setStatus_seq (d : DeviceStatus) (s : State) : (setStatus d s).seq = s.seq := rfl
@[simp] theorem setStatus_req (d : DeviceStatus) (s : State) : (setStatus d s).req = s.req := rfl
@[simp] theorem setStatus_t0 (d : DeviceStatus) (s : State) : (setStatus d s).t0 = s.t0 := rfl
@[simp] theorem setStatus_res (d : DeviceStatus) (s : State) :
    (setStatus d s).res = { s.res with status := d } := rfl
@[simp] theorem setStatus_outstanding (d : DeviceStatus) (s : State) :
    (setStatus d s).outstanding = s.outstanding := rfl
@[simp] theorem setStatus_twStatus (d : DeviceStatus) (s : State) : (setStatus d s).twStatus = s.twStatus := rfl
@[simp] theorem setStatus_inbox (d : DeviceStatus) (s : State) : (setStatus d s).inbox = s.inbox := rfl
@[simp] theorem setStatus_clockIn (d : DeviceStatus) (s : State) : (setStatus d s).clockIn = s.clockIn := rfl
@[simp] theorem setStatus_draws (d : DeviceStatus) (s : State) : (setStatus d s).draws = s.draws := rfl
@[simp] theorem setStatus_trace (d : DeviceStatus) (s : State) : (setStatus d s).trace = s.trace := rfl
@[simp] theorem setStatus_device (d : DeviceStatus) (s : State) : (setStatus d s).device = s.device := rfl
@[simp] theorem setStatus_lateWrites (d : DeviceStatus) (s : State) :
    (setStatus d s).lateWrites = s.lateWrites := rfl

/-! ### transportFailure -/

@[simp] theorem transportFailure_cfg (s : State) : (transportFailure s).cfg = s.cfg := rfl
@[simp] theorem transportFailure_seq (s : State) : (transportFailure s).seq = .done := rfl
@[simp] theorem transportFailure_req (s : State) : (transportFailure s).req = s.req := rfl
@[simp] theorem transportFailure_t0 (s : State) : (transportFailure s).t0 = s.t0 := rfl
@[simp] theorem transportFailure_res (s : State) : (transportFailure s).res = { s.res with ok := false } := rfl
@[simp] theorem transportFailure_outstanding (s : State) :
    (transportFailure s).outstanding = s.outstanding := rfl
@[simp] theorem transportFailure_twStatus (s : State) : (transportFailure s).twStatus = s.twStatus := rfl
@[simp] theorem transportFailure_inbox (s : State) : (transportFailure s).inbox = s.inbox := rfl
@[simp] theorem transportFailure_clockIn (s : State) : (transportFailure s).clockIn = s.clockIn := rfl
@[simp] theorem transportFailure_draws (s : State) : (transportFailure s).draws = s.draws := rfl
@[simp] theorem transportFailure_trace (s : State) : (transportFailure s).trace = s.trace := rfl
@[simp] theorem transportFailure_device (s : State) : (transportFailure s).device = s.device := rfl
@[simp] theorem transportFailure_lateWrites (s : State) : (transportFailure s).lateWrites = s.lateWrites := rfl

/-! ### respond -/

@[simp] theorem respond_cfg (s : State) : (respond s).cfg = s.cfg := rfl
@[simp] theorem respond_seq (s : State) : (respond s).seq = .idle := rfl
@[simp] theorem respond_req (s : State) : (respond s).req = s.req := rfl
@[simp] theorem respond_t0 (s : State) : (respond s).t0 = s.t0 := rfl
@[simp] theorem respond_res (s : State) : (respond s).res = s.res := rfl
@[simp] theorem respond_outstanding (s : State) : (respond s).outstanding = s.outstanding := rfl
@[simp] theorem respond_twStatus (s : State) : (respond s).twStatus = s.twStatus := rfl
@[simp] theorem respond_inbox (s : State) : (respond s).inbox = s.inbox := rfl
@[simp] theorem respond_clockIn (s : State) : (respond s).clockIn = s.clockIn := rfl
@[simp] theorem respond_draws (s : State) : (respond s).draws = s.draws := rfl
@[simp] theorem respond_device (s : State) : (respond s).device = s.device := rfl
@[simp] theorem respond_lateWrites (s : State) : (respond s).lateWrites = s.lateWrites := rfl

/-! ### construct -/

@[simp] theorem construct_cfg (c : Cfg) (s : State) : (construct c s).cfg = c := rfl
@[simp] theorem construct_seq (c : Cfg) (s : State) : (construct c s).seq = .idle := rfl
@[simp] theorem construct_t0 (c : Cfg) (s : State) :
    (construct c s).t0 = Config.freeClock s.draws % 2 ^ c.clockW := rfl
@[simp] theorem construct_outstanding (c : Cfg) (s : State) : (construct c s).outstanding = none := rfl
@[simp] theorem construct_twStatus (c : Cfg) (s : State) : (construct c s).twStatus = s.twStatus := rfl
@[simp] theorem construct_inbox (c : Cfg) (s : State) : (construct c s).inbox = s.inbox := rfl
@[simp] theorem construct_clockIn (c : Cfg) (s : State) : (construct c s).clockIn = s.clockIn := rfl
@[simp] theorem construct_draws (c : Cfg) (s : State) : (construct c s).draws = s.draws + 3 := rfl
@[simp] theorem construct_trace (c : Cfg) (s : State) : (construct c s).trace = .reset :: s.trace := rfl
@[simp] theorem construct_device (c : Cfg) (s : State) : (construct c s).device = s.device := rfl
@[simp] theorem construct_lateWrites (c : Cfg) (s : State) :
    (construct c s).lateWrites = s.lateWrites ++ abandonedWrite s := rfl

/-! ### deliverFrame -/

@[simp] theorem deliverFrame_cfg (p : Bool) (x : Settings) (s : State) : (deliverFrame p x s).cfg = s.cfg := rfl
@[simp] theorem deliverFrame_seq (p : Bool) (x : Settings) (s : State) : (deliverFrame p x s).seq = s.seq := rfl
@[simp] theorem deliverFrame_req (p : Bool) (x : Settings) (s : State) : (deliverFrame p x s).req = s.req := rfl
@[simp] theorem deliverFrame_t0 (p : Bool) (x : Settings) (s : State) : (deliverFrame p x s).t0 = s.t0 := rfl
@[simp] theorem deliverFrame_res (p : Bool) (x : Settings) (s : State) : (deliverFrame p x s).res = s.res := rfl
@[simp] theorem deliverFrame_outstanding (p : Bool) (x : Settings) (s : State) :
    (deliverFrame p x s).outstanding = s.outstanding := rfl
@[simp] theorem deliverFrame_twStatus (p : Bool) (x : Settings) (s : State) :
    (deliverFrame p x s).twStatus = s.twStatus := rfl
@[simp] theorem deliverFrame_inbox (p : Bool) (x : Settings) (s : State) :
    (deliverFrame p x s).inbox = s.inbox := rfl
@[simp] theorem deliverFrame_clockIn (p : Bool) (x : Settings) (s : State) :
    (deliverFrame p x s).clockIn = s.clockIn := rfl
@[simp] theorem deliverFrame_draws (p : Bool) (x : Settings) (s : State) :
    (deliverFrame p x s).draws = s.draws + 4 := rfl
@[simp] theorem deliverFrame_trace (p : Bool) (x : Settings) (s : State) :
    (deliverFrame p x s).trace = s.trace := rfl
@[simp] theorem deliverFrame_device (p : Bool) (x : Settings) (s : State) :
    (deliverFrame p x s).device =
      deviceTakes s.cfg.variant p x (s.twStatus == 0#8 && s.lateWrites.isEmpty) s.draws s.device := rfl
@[simp] theorem deliverFrame_lateWrites (p : Bool) (x : Settings) (s : State) :
    (deliverFrame p x s).lateWrites = s.lateWrites := rfl

/-! ### startWrite -/

@[simp] theorem startWrite_cfg (r : Ref) (g : Bool) (v : Value) (p : Bool) (s : State) :
    (startWrite r g v p s).cfg = s.cfg := rfl
@[simp] theorem startWrite_seq (r : Ref) (g : Bool) (v : Value) (p : Bool) (s : State) :
    (startWrite r g v p s).seq = .wrPend := rfl
@[simp] theorem startWrite_req (r : Ref) (g : Bool) (v : Value) (p : Bool) (s : State) :
    (startWrite r g v p s).req = s.req := rfl
@[simp] theorem startWrite_t0 (r : Ref) (g : Bool) (v : Value) (p : Bool) (s : State) :
    (startWrite r g v p s).t0 = clockNow s := rfl
@[simp] theorem startWrite_res (r : Ref) (g : Bool) (v : Value) (p : Bool) (s : State) :
    (startWrite r g v p s).res = s.res := rfl
@[simp] theorem startWrite_outstanding (r : Ref) (g : Bool) (v : Value) (p : Bool) (s : State) :
    (startWrite r g v p s).outstanding = some (.write s.cfg.addr (commandFrame s.cfg r g v p)) := rfl
@[simp] theorem startWrite_twStatus (r : Ref) (g : Bool) (v : Value) (p : Bool) (s : State) :
    (startWrite r g v p s).twStatus = s.twStatus := rfl
@[simp] theorem startWrite_inbox (r : Ref) (g : Bool) (v : Value) (p : Bool) (s : State) :
    (startWrite r g v p s).inbox = s.inbox := rfl
@[simp] theorem startWrite_clockIn (r : Ref) (g : Bool) (v : Value) (p : Bool) (s : State) :
    (startWrite r g v p s).clockIn = s.clockIn.tail := rfl
@[simp] theorem startWrite_draws (r : Ref) (g : Bool) (v : Value) (p : Bool) (s : State) :
    (startWrite r g v p s).draws = s.draws + 1 := rfl
@[simp] theorem startWrite_trace (r : Ref) (g : Bool) (v : Value) (p : Bool) (s : State) :
    (startWrite r g v p s).trace = .twReq s.cfg.addr (commandFrame s.cfg r g v p) :: .now (clockNow s) :: s.trace := rfl
@[simp] theorem startWrite_device (r : Ref) (g : Bool) (v : Value) (p : Bool) (s : State) :
    (startWrite r g v p s).device = s.device := rfl
@[simp] theorem startWrite_lateWrites (r : Ref) (g : Bool) (v : Value) (p : Bool) (s : State) :
    (startWrite r g v p s).lateWrites = s.lateWrites := rfl

end Sys2Proof.Machine
end

