-- ==== Sys2Proof/Laws/Ops.lean ====
section
/-! SUPPORT. Laws/Ops.lean: for each shared operation, once, everything it can do. -/

namespace Sys2Proof.Machine

/-- A clock sample is a CLOCK_W-bit number (R53). -/
theorem clockNow_lt (s : State) : clockNow s < 2 ^ s.cfg.clockW := by
  unfold clockNow
  split <;> exact Nat.mod_lt _ (Nat.two_pow_pos _)

theorem clockNow_of_cons {s : State} {t : Nat} {ts : List Nat} (h : s.clockIn = t :: ts) :
    clockNow s = t % 2 ^ s.cfg.clockW := by
  simp [clockNow, h]

/-- Acceptance: in IDLE the request is taken, elsewhere nothing happens; it never stops. -/
theorem whenIdle_next {f : State → State} {s t : State} (h : whenIdle f s = .next t) :
    (s.seq = .idle ∧ t = f s) ∨ (s.seq ≠ .idle ∧ t = s) := by
  unfold whenIdle at h
  split at h <;> simp_all

/-- A command frame runs only as the outstanding write of an instance of its variant. -/
theorem carryWrite_next {v : Variant} {p : Bool} {f : List Byte} {x : Settings} {s t : State}
    (h : carryWrite v p f x s = .next t) :
    s.cfg.variant = v ∧ s.seq = .wrPend ∧ s.outstanding = some (.write s.cfg.addr f) ∧
      t = writeCompletes (closeTransaction (.twRsp s.twStatus) (deliverFrame p x s)) := by
  unfold carryWrite at h
  split at h
  · cases h
  · split at h
    · simp_all
    · cases h

theorem carryWrite_of_outstanding {v : Variant} {p : Bool} {f : List Byte} {x : Settings} {s : State}
    (hv : s.cfg.variant = v) (hq : s.seq = .wrPend) (ho : s.outstanding = some (.write s.cfg.addr f)) :
    carryWrite v p f x s =
      .next (writeCompletes (closeTransaction (.twRsp s.twStatus) (deliverFrame p x s))) := by
  simp [carryWrite, hv, hq, ho]

/-- The three ways a write can complete (R133). -/
theorem writeCompletes_cases (s : State) :
    (s.twStatus ≠ 0#8 ∧ writeCompletes s = setOk false .done s) ∨
      (s.twStatus = 0#8 ∧ s.req.persist = true ∧ writeCompletes s = setOk true .transactionSent s) ∨
      (s.twStatus = 0#8 ∧ s.req.persist = false ∧ writeCompletes s = setOk true .done s) := by
  unfold writeCompletes transportFailure
  split <;> rename_i h
  · exact .inl ⟨h, rfl⟩
  · have h0 : s.twStatus = 0#8 := by simpa using h
    split <;> simp_all

/-- The two branches of COND_PERSIST's compare (R139). -/
theorem compareStored_cases (d : DeviceStatus) (s : State) :
    (storedMatches d s.req = true ∧ compareStored d s = setOk true .done s) ∨
      (storedMatches d s.req = false ∧
        compareStored d s = startWrite s.req.ref s.req.gain s.req.value true s) := by
  unfold compareStored
  split <;> simp_all

/-- The two outcomes of the timeout test (R134). -/
theorem timeoutTest_cases (s : State) :
    (timedOut s.cfg.clockW (clockNow s) s.t0 = true ∧
        timeoutTest s = { afterClock s with seq := .pollingTimedOut }) ∨
      (timedOut s.cfg.clockW (clockNow s) s.t0 = false ∧
        timeoutTest s = issueRead .pollRead (afterClock s)) := by
  unfold timeoutTest
  split <;> simp_all

/-- The four sequencer states in which a status frame has a step, and what it does there. -/
theorem takeStatus_next {f : List Byte} {d : DeviceStatus} {s t : State} (h : takeStatus f d s = .next t) :
    (s.seq = .srRead ∧ t = setOk true .done (setStatus d (closeTransaction (.trRsp f) s))) ∨
      (s.seq = .cpRead ∧ t = compareStored d (setStatus d (closeTransaction (.trRsp f) s))) ∨
      (s.seq = .pollRead ∧
        t = { setStatus d (closeTransaction (.trRsp f) s) with
          seq := if rdy d.vcfg then .pollingReady else .transactionSent }) ∨
      (s.seq = .idle ∧ t = s) := by
  unfold takeStatus at h
  split at h <;> simp_all

/-- A pure operation that runs changes nothing but what was observed (R115, R127). -/
theorem onPort_next {b : Bool} {o : Obs} {s t : State} (h : onPort b o s = .next t) :
    b = true ∧ t = observe o s := by
  unfold onPort at h
  split at h <;> simp_all

/-- The four kinds of step the block takes on its own. -/
theorem ownStep_cases (s : State) :
    (s.seq = .transactionSent ∧ ownStep s = timeoutTest s) ∨
      ((s.seq = .pollingReady ∨ s.seq = .pollingTimedOut) ∧ ownStep s = { s with seq := .done }) ∨
      (s.seq = .done ∧ ownStep s = respond s) ∨
      ((s.seq = .idle ∨ s.seq = .srRead ∨ s.seq = .cpRead ∨ s.seq = .wrPend ∨ s.seq = .pollRead) ∧
        ownStep s = s) := by
  unfold ownStep
  split <;> simp_all

/-- What latching an event leaves. -/
theorem latch_eq (e : Event) (s : State) : ∃ st, latch e s = { s with twStatus := st } := by
  cases e <;> exact ⟨_, rfl⟩

/-- Only a completing write drives lines; every other event leaves the state as it is. -/
@[simp] theorem latch_readDone (frame : List Byte) (s : State) : latch (.readDone frame) s = s := rfl

/-- Outside IDLE a status frame is decoded; in IDLE it is not looked at (R190). -/
theorem fetch_readDone {s : State} (frame : List Byte) (h : s.seq ≠ .idle) :
    fetch (.readDone frame) s = some (decode s.cfg .status frame) := by
  simp [fetch, presented, h]

theorem fetch_readDone_idle {s : State} (frame : List Byte) (h : s.seq = .idle) :
    fetch (.readDone frame) s = none := by
  simp [fetch, presented, h]

/-- Everything a step can be: the block's own step, a decoded instruction, a word that is no request, or an event
of the environment, on the state with the event taken from the inbox. -/
theorem step_next {s t : State} (h : step s = .next t) :
    (s.inbox = [] ∧ t = ownStep s) ∨
      ∃ e rest, s.inbox = e :: rest ∧
        let s' := latch e { s with inbox := rest }
        (∃ i, fetch e s' = some (.ok i) ∧ exec i s' = .next t) ∨
          (fetch e s' = some (.error .noOperation) ∧ t = s') ∨
          (fetch e s' = none ∧ environment e s' = .next t) := by
  unfold step at h
  split at h
  · rename_i h0
    left
    simp_all
  · rename_i e rest h0
    refine .inr ⟨e, rest, h0, ?_⟩
    dsimp only
    split at h <;> rename_i hf
    · exact .inl ⟨_, hf, h⟩
    · rename_i r
      unfold rejected at h
      split at h
      · exact .inr (.inl ⟨hf, by simpa using h.symm⟩)
      · cases h
    · exact .inr (.inr ⟨hf, h⟩)

/-- The end of an abandoned write touches nothing of the block: only what stands outside it and the count of free
values (R190). -/
theorem endLateWrite_eq (b : Bool) (s : State) :
    ∃ d n l, endLateWrite b s = { s with device := d, draws := n, lateWrites := l } := by
  unfold endLateWrite
  split
  · exact ⟨s.device, s.draws, s.lateWrites, rfl⟩
  · exact ⟨_, _, _, rfl⟩

theorem endLateWrite_of_nil {b : Bool} {s : State} (h : s.lateWrites = []) : endLateWrite b s = s := by
  simp [endLateWrite, h]

theorem endLateWrite_of_cons {b : Bool} {s : State} {w : LateWrite} {ws : List LateWrite}
    (h : s.lateWrites = w :: ws) :
    endLateWrite b s =
      { s with lateWrites := ws, device := lateTakes w b s.draws s.device, draws := s.draws + 4 } := by
  simp [endLateWrite, h]

/-- A frame that is delivered for certain and meets no non-volatile write does what its name says (R57). -/
theorem deviceTakes_of_certain (v : Variant) (p : Bool) (x : Settings) (n : Nat) {d : Device}
    (h : d.nvWrite = none) :
    deviceTakes v p x true n d =
      if p then { vol := x, nv := freeSettings v n, nvWrite := some x } else { d with vol := x } := by
  simp [deviceTakes, h]

/-- Everything an environment event that presents no instruction can do. -/
theorem environment_next {e : Event} {s t : State} (h : environment e s = .next t) :
    t = ownStep s ∨ (∃ c, e = .reset c ∧ c.wf = true ∧ t = construct c s) ∨
      (∃ d n l, t = { s with device := d, draws := n, lateWrites := l }) := by
  have same : ∃ d n l, s = { s with device := d, draws := n, lateWrites := l } := ⟨_, _, _, rfl⟩
  cases e with
  | tick => exact .inl (by simpa [environment] using h.symm)
  | writeDone st =>
    by_cases hq : s.seq = .idle
    · obtain ⟨d, n, l, hl⟩ := endLateWrite_eq (st == 0#8) s
      exact .inr (.inr ⟨d, n, l, by rw [← hl]; simpa [environment, hq] using h.symm⟩)
    · simp [environment, hq] at h
  | reset c =>
    by_cases hc : c.wf = true
    · exact .inr (.inl ⟨c, rfl, hc, by simpa [environment, hc] using h.symm⟩)
    · simp [environment, hc] at h
  | nvWriteEnds => exact .inr (.inr ⟨_, s.draws, s.lateWrites, by simpa [environment] using h.symm⟩)
  | devicePowerCycle => exact .inr (.inr ⟨_, _, s.lateWrites, by simpa [environment] using h.symm⟩)
  | lateWriteEnds =>
    obtain ⟨d, n, l, hl⟩ := endLateWrite_eq false s
    exact .inr (.inr ⟨d, n, l, by rw [← hl]; simpa [environment] using h.symm⟩)
  | request w => obtain rfl : t = s := by simpa [environment] using h.symm
                 exact .inr (.inr same)
  | encodePort w => obtain rfl : t = s := by simpa [environment] using h.symm
                    exact .inr (.inr same)
  | decodePort w => obtain rfl : t = s := by simpa [environment] using h.symm
                    exact .inr (.inr same)
  | readDone w => obtain rfl : t = s := by simpa [environment] using h.symm
                  exact .inr (.inr same)

end Sys2Proof.Machine
end

