-- ==== Sys2Proof/Laws/PerInstr.lean ====
section
/-! SUPPORT. Laws/PerInstr.lean: how many bytes an instruction has on its port, per constructor (R93): the
variant's frame length on the wire, 4 bytes for a request or operand word, 6 for the decoder's port. -/

namespace Sys2Proof.Laws.ByteLength

/-- The length in bytes of each row. -/
def rowBytes : Instr → Nat
  | .wrvol8 _ _ _ => cmdLen .v8
  | .wrvol10 _ _ _ => cmdLen .v10
  | .wrvol12 _ _ _ => cmdLen .v12
  | .wrall8 _ _ _ => cmdLen .v8
  | .wrall10 _ _ _ => cmdLen .v10
  | .wrall12 _ _ _ => cmdLen .v12
  | .statusN _ _ _ _ => statusLen .v8
  | .statusW _ _ _ _ _ _ => statusLen .v12
  | .statusRead => 4
  | .execute _ _ _ _ => 4
  | .condPersist _ _ _ => 4
  | .encode8 _ _ _ _ => 4
  | .encode10 _ _ _ _ => 4
  | .encode12 _ _ _ _ => 4
  | .decodeN _ _ _ _ => 6
  | .decodeW _ _ _ _ _ _ => 6

/-- The encoder gives as many bytes as the row has, for every CMD_WRITE_ALL. -/
def Statement (i : Instr) : Prop := ∀ c : Cfg, (Sys2Proof.encode c i).length = rowBytes i

theorem wrvol8 (r : Ref) (g : Bool) (v : Value) : Statement (.wrvol8 r g v) := fun _ => rfl
theorem wrvol10 (r : Ref) (g : Bool) (v : Value) : Statement (.wrvol10 r g v) := fun _ => rfl
theorem wrvol12 (r : Ref) (g : Bool) (v : Value) : Statement (.wrvol12 r g v) := fun _ => rfl
theorem wrall8 (r : Ref) (g : Bool) (v : Value) : Statement (.wrall8 r g v) := fun _ => rfl
theorem wrall10 (r : Ref) (g : Bool) (v : Value) : Statement (.wrall10 r g v) := fun _ => rfl
theorem wrall12 (r : Ref) (g : Bool) (v : Value) : Statement (.wrall12 r g v) := fun _ => rfl
theorem statusN (s0 s1 s2 s3 : Byte) : Statement (.statusN s0 s1 s2 s3) := fun _ => rfl
theorem statusW (s0 s1 s2 s3 s4 s5 : Byte) : Statement (.statusW s0 s1 s2 s3 s4 s5) := fun _ => rfl
theorem statusRead : Statement .statusRead := fun _ => rfl
theorem execute (p : Bool) (r : Ref) (g : Byte) (v : Value) : Statement (.execute p r g v) := fun _ => rfl
theorem condPersist (r : Ref) (g : Byte) (v : Value) : Statement (.condPersist r g v) := fun _ => rfl
theorem encode8 (p : Bool) (r : Ref) (g : Byte) (v : Value) : Statement (.encode8 p r g v) := fun _ => rfl
theorem encode10 (p : Bool) (r : Ref) (g : Byte) (v : Value) : Statement (.encode10 p r g v) := fun _ => rfl
theorem encode12 (p : Bool) (r : Ref) (g : Byte) (v : Value) : Statement (.encode12 p r g v) := fun _ => rfl
theorem decodeN (s0 s1 s2 s3 : Byte) : Statement (.decodeN s0 s1 s2 s3) := fun _ => rfl
theorem decodeW (s0 s1 s2 s3 s4 s5 : Byte) : Statement (.decodeW s0 s1 s2 s3 s4 s5) := fun _ => rfl

end Sys2Proof.Laws.ByteLength
end

