-- ==== Sys2Proof/Laws/Run.lean ====
section
/-! SUPPORT. Laws/Run.lean: infinite runs. The one induction over a run, and what a step can do to SEQ outside
IDLE, said by which event it takes. -/

namespace Sys2Proof.Safety

open Sys2Proof Sys2Proof.Machine

@[simp] theorem receives_nil (s : State) : receives s [] [] = s := by
  simp [receives]

/-- What every step and every supply of the environment keeps, every state of a run has. -/
theorem isRun_invariant {P : State → Prop} {r : Nat → State} (hr : IsRun r)
    (supply : ∀ s events samples, P s → P (receives s events samples))
    (keep : ∀ s t, P s → step s = .next t → P t) (start : P (r 0)) : ∀ n, P (r n)
  | 0 => start
  | n + 1 => by
    obtain ⟨t, events, samples, hs, he⟩ := hr n
    rw [he]
    exact supply _ _ _ (keep _ _ (isRun_invariant hr supply keep start n) hs)

/-- The environment's supply touches nothing the invariant speaks of. -/
theorem blockInv_receives {s : State} (events : List Event) (samples : List Nat) (h : BlockInv s) :
    BlockInv (receives s events samples) :=
  ⟨h.cfgAdmitted, h.t0Fits, h.outstandingIs, h.latches⟩

/-- A state in which a step changes nothing is a run for ever. -/
theorem isRun_const {s : State} (h : step s = .next s) : IsRun (fun _ => s) :=
  fun _ => ⟨s, [], [], h, by simp⟩

/-- Outside IDLE an instruction keeps SEQ, unless it is the answer of the outstanding transaction. -/
theorem exec_keeps_seq {i : Instr} {s t : State} (hq : s.seq ≠ .idle) (h : exec i s = .next t) :
    t.seq = s.seq ∨ (i.port = .command ∧ s.seq = .wrPend) ∨
      (i.port = .status ∧ (s.seq = .srRead ∨ s.seq = .cpRead ∨ s.seq = .pollRead)) := by
  cases i <;> simp only [exec] at h
  case statusRead => rcases whenIdle_next h with ⟨h0, _⟩ | ⟨_, rfl⟩ <;> simp_all
  case execute => rcases whenIdle_next h with ⟨h0, _⟩ | ⟨_, rfl⟩ <;> simp_all
  case condPersist => rcases whenIdle_next h with ⟨h0, _⟩ | ⟨_, rfl⟩ <;> simp_all
  case encode8 => obtain ⟨_, rfl⟩ := onPort_next h; simp
  case encode10 => obtain ⟨_, rfl⟩ := onPort_next h; simp
  case encode12 => obtain ⟨_, rfl⟩ := onPort_next h; simp
  case decodeN => obtain ⟨_, rfl⟩ := onPort_next h; simp
  case decodeW => obtain ⟨_, rfl⟩ := onPort_next h; simp
  case statusN =>
    unfold execStatusN at h
    split at h
    · rcases takeStatus_next h with ⟨h0, _⟩ | ⟨h0, _⟩ | ⟨h0, _⟩ | ⟨h0, _⟩ <;> simp_all [Instr.port]
    · cases h
  case statusW =>
    unfold execStatusW at h
    split at h
    · cases h
    · rcases takeStatus_next h with ⟨h0, _⟩ | ⟨h0, _⟩ | ⟨h0, _⟩ | ⟨h0, _⟩ <;> simp_all [Instr.port]
  all_goals
    obtain ⟨_, h0, _⟩ := carryWrite_next h
    exact .inr (.inl ⟨rfl, h0⟩)

end Sys2Proof.Safety
end

