-- ==== Sys2Proof/Tests/Slice0.lean ====
section
/-! SUPPORT. Tests/Slice0.lean: small tests whose expected results come from spec/95_test_vectors.md and the
examples of the rules (named beside each), the WellFormed smoke test, and a witness for every statement that
has hypotheses. -/

namespace Sys2Proof.Tests

open Sys2Proof Sys2Proof.Machine Sys2Proof.Safety

/-- An instance of a variant, in IDLE after reset, with a bus address that is not the default. -/
def at_ (v : Variant) : State :=
  { State.reset with cfg := { Cfg.default with variant := v, addr := 0x60#7 } }

/-- What a test looks at in a next state; none if the machine stopped. -/
def look {α : Type} (f : State → α) : Answer → Option α
  | .next t => some (f t)
  | .fault _ => none
  | .refused _ => none

def cfgOf (v : Variant) : Cfg := { Cfg.default with variant := v }

/-- Decoding, as an Option so that it can be compared. -/
def dec (v : Variant) (p : Port) (bs : List Byte) : Option Instr := (decode (cfgOf v) p bs).toOption

/-! ## WellFormed: one ill-formed term for each check, at VMAX + 1; the boundary is accepted -/

theorem test_wf_wrvol8 : Instr.wf (.wrvol8 0#2 false 256#16) = false ∧ Instr.wf (.wrvol8 0#2 false 255#16) := by
  decide
theorem test_wf_wrvol10 :
    Instr.wf (.wrvol10 0#2 false 1024#16) = false ∧ Instr.wf (.wrvol10 0#2 false 1023#16) := by decide
theorem test_wf_wrvol12 :
    Instr.wf (.wrvol12 0#2 false 4096#16) = false ∧ Instr.wf (.wrvol12 0#2 false 4095#16) := by decide
theorem test_wf_wrall8 : Instr.wf (.wrall8 0#2 false 256#16) = false ∧ Instr.wf (.wrall8 0#2 false 255#16) := by
  decide
theorem test_wf_wrall10 :
    Instr.wf (.wrall10 0#2 false 1024#16) = false ∧ Instr.wf (.wrall10 0#2 false 1023#16) := by decide
theorem test_wf_wrall12 :
    Instr.wf (.wrall12 0#2 false 4096#16) = false ∧ Instr.wf (.wrall12 0#2 false 4095#16) := by decide

/-! ## Decoding: words written out bit by bit from the spec's encodings -/

/-- WRVOL.8, R81 and R82: 010 01 1 00, then the value byte. -/
theorem test_decode_wrvol8 :
    dec .v8 .command [0b01001100#8, 0b10100101#8] = some (.wrvol8 1#2 true 0xA5#16) := by decide
/-- WRVOL.10, the source's frame L1-3: 40 80 00 is 512. -/
theorem test_decode_wrvol10 :
    dec .v10 .command [0b01000000#8, 0b10000000#8, 0b00000000#8] = some (.wrvol10 0#2 false 512#16) := by decide
/-- WRVOL.12, vector E39: 5C AB C0. -/
theorem test_decode_wrvol12 :
    dec .v12 .command [0b01011100#8, 0b10101011#8, 0b11000000#8] = some (.wrvol12 3#2 true 0xABC#16) := by decide
/-- WRALL.8, vector E34: 6C A5. -/
theorem test_decode_wrall8 :
    dec .v8 .command [0b01101100#8, 0b10100101#8] = some (.wrall8 1#2 true 0xA5#16) := by decide
/-- WRALL.10, vector E38: 70 FF C0. -/
theorem test_decode_wrall10 :
    dec .v10 .command [0b01110000#8, 0b11111111#8, 0b11000000#8] = some (.wrall10 2#2 false 0x3FF#16) := by decide
/-- WRALL.12, vector E41: 60 80 00. -/
theorem test_decode_wrall12 :
    dec .v12 .command [0b01100000#8, 0b10000000#8, 0b00000000#8] = some (.wrall12 0#2 false 0x800#16) := by decide
/-- STATUS.N, R86. -/
theorem test_decode_statusN :
    dec .v8 .status [0xC0#8, 0xFF#8, 0xE9#8, 0x80#8] = some (.statusN 0xC0#8 0xFF#8 0xE9#8 0x80#8) := by decide
/-- STATUS.W, R87, the same for V10 and V12. -/
theorem test_decode_statusW :
    dec .v10 .status [0xC8#8, 0x12#8, 0x34#8, 0xDF#8, 0xAB#8, 0xCD#8] =
      some (.statusW 0xC8#8 0x12#8 0x34#8 0xDF#8 0xAB#8 0xCD#8) ∧
    dec .v12 .status [0xC8#8, 0x12#8, 0x34#8, 0xDF#8, 0xAB#8, 0xCD#8] =
      some (.statusW 0xC8#8 0x12#8 0x34#8 0xDF#8 0xAB#8 0xCD#8) := by decide
/-- STATUS_READ, section 2.4: 0x40000000, and with every ignored bit set. -/
theorem test_decode_statusRead :
    dec .v8 .request (bytes32 0x40000000#32) = some .statusRead ∧
    dec .v8 .request (bytes32 0x7FFFFFFF#32) = some .statusRead := by decide
/-- EXECUTE, section 2.4: 0xA80101A5. -/
theorem test_decode_execute :
    dec .v8 .request (bytes32 0xA80101A5#32) = some (.execute true 1#2 1#8 0x1A5#16) := by decide
/-- COND_PERSIST, section 2.4: 0xD0000080 and 0xF0000080 are the same operation. -/
theorem test_decode_condPersist :
    dec .v8 .request (bytes32 0xD0000080#32) = some (.condPersist 2#2 0#8 0x80#16) ∧
    dec .v8 .request (bytes32 0xF0000080#32) = some (.condPersist 2#2 0#8 0x80#16) := by decide
/-- ENCODE.8, E34 on the port: enc_req = 0x280101A5. -/
theorem test_decode_encode8 :
    dec .v8 .encodePort (bytes32 0x280101A5#32) = some (.encode8 true 1#2 1#8 0x1A5#16) := by decide
/-- ENCODE.10, the layout of R90 with ref = 1, gain = 255, value = 0x155 (E37). -/
theorem test_decode_encode10 :
    dec .v10 .encodePort (bytes32 0x08FF0155#32) = some (.encode10 false 1#2 255#8 0x155#16) := by decide
/-- ENCODE.12, E39 on the port: enc_req = 0x18010ABC. -/
theorem test_decode_encode12 :
    dec .v12 .encodePort (bytes32 0x18010ABC#32) = some (.encode12 false 3#2 1#8 0xABC#16) := by decide
/-- DECODE.N, R90: bits 15:0 are ignored. -/
theorem test_decode_decodeN :
    dec .v8 .decodePort (bytes48 0xC0FFE980BEEF#48) = some (.decodeN 0xC0#8 0xFF#8 0xE9#8 0x80#8) := by decide
/-- DECODE.W, R90. -/
theorem test_decode_decodeW :
    dec .v12 .decodePort (bytes48 0xC81234DFABCD#48) =
      some (.decodeW 0xC8#8 0x12#8 0x34#8 0xDF#8 0xAB#8 0xCD#8) := by decide

/-- Rejected by name: a request word that is none (R89), wrong lengths (R93, R113), selectors the block does
not send (R85), reserved and pad bits (R81, R83, R84). -/
theorem test_decode_rejects :
    decode (cfgOf .v8) .request (bytes32 0x3FFFFFFF#32) = .error .noOperation ∧
    decode (cfgOf .v8) .status [0#8, 0#8, 0#8, 0#8, 0#8, 0#8] = .error .frameLength ∧
    decode (cfgOf .v8) .command [0xE0#8, 0#8] = .error .selector ∧
    decode (cfgOf .v8) .command [0x41#8, 0#8] = .error .reservedBits ∧
    decode (cfgOf .v10) .command [0x40#8, 0#8, 0x20#8] = .error .padBits := ⟨rfl, rfl, rfl, rfl, rfl⟩

/-- The opcode table's numbers (match of the rows with fixed bits) give the rows. -/
theorem test_table_words :
    decodeTableWord 16 0x4000 = some (.wrvol8 0#2 false 0#16) ∧
    decodeTableWord 16 0x6000 = some (.wrall8 0#2 false 0#16) ∧
    decodeTableWord 24 0x400000 = some (.wrvol10 0#2 false 0#16) ∧
    decodeTableWord 24 0x600010 = some (.wrall12 0#2 false 1#16) ∧
    decodeTableWord 32 0x40000000 = some .statusRead ∧
    decodeTableWord 32 0x80000000 = some (.execute false 0#2 0#8 0#16) ∧
    decodeTableWord 32 0xC0000000 = some (.condPersist 0#2 0#8 0#16) := by decide

/-- A word placed to be fetched next runs as the very next step after reset. -/
theorem test_withFetchWord_runs :
    look State.seq (step (State.reset.withFetchWord 16 0x4000)) = some .done ∧
    look State.seq (step (State.reset.withFetchWord 24 0x600010)) = some .done ∧
    look State.seq (step (State.reset.withFetchWord 32 0x80000000)) = some .wrPend ∧
    look State.seq (step (State.reset.withFetchWord 32 0xC0000000)) = some .cpRead ∧
    look State.trace (step (State.reset.withFetchWord 48 0xC0FFE9800000)) = some [.decPort 0xC000FFE90080#48] ∧
    look State.seq (step (State.reset.withFetchWord 48 0xC81234DFABCD)) = some .done := by decide

/-! ## The codec -/

/-- E34: ENCODE.8 ref=1, gain=1, value=0x1A5, persist=1 gives 6C A5, enc_frame = 0x6CA500, enc_len = 2. -/
theorem test_encode8 :
    look State.trace (exec (.encode8 true 1#2 1#8 0x1A5#16) (at_ .v8)) = some [.encPort 0x6CA500#24 2] := by decide
/-- E37: ENCODE.10 ref=1, gain=255, value=0x155, persist=0 gives 4C 55 40. -/
theorem test_encode10 :
    look State.trace (exec (.encode10 false 1#2 255#8 0x155#16) (at_ .v10)) = some [.encPort 0x4C5540#24 3] := by
  decide
/-- E32 and E39: value 0x1ABC is truncated to 0xABC. -/
theorem test_encode12 :
    look State.trace (exec (.encode12 false 3#2 1#8 0x1ABC#16) (at_ .v12)) = some [.encPort 0x5CABC0#24 3] := by
  decide
/-- S3: DECODE.N [C0 FF E9 80] reads 0xC000FFE90080 on the result port. -/
theorem test_decodeN :
    look State.trace (exec (.decodeN 0xC0#8 0xFF#8 0xE9#8 0x80#8) (at_ .v8)) =
      some [.decPort 0xC000FFE90080#48] := by decide
/-- S8: DECODE.W [C8 12 34 DF AB CD] reads 0xC81234DFABCD. -/
theorem test_decodeW :
    look State.trace (exec (.decodeW 0xC8#8 0x12#8 0x34#8 0xDF#8 0xAB#8 0xCD#8) (at_ .v10)) =
      some [.decPort 0xC81234DFABCD#48] := by decide
/-- Section 2.1, field round trip: 0xD9 is (1 1 0 3 0 1), and S7: 0xA5 is (1 0 1 0 2 1). -/
theorem test_config_fields :
    (rdy 0xD9#8, por 0xD9#8, unusedBit 0xD9#8, vref 0xD9#8, pd 0xD9#8, gainFlag 0xD9#8) =
      (true, true, false, 3#2, 0#2, true) ∧
    packConfig true false true 0#2 2#2 true = 0xA5#8 := by decide

/-! ## The sequencer, single steps (section 2.6) -/

/-- Q1, Q2: a STATUS_READ request issues one read of 4 (V8) or 6 (V12) bytes to CFG.ADDR. -/
theorem test_statusRead :
    look State.outstanding (step { at_ .v8 with inbox := [.request 0x40000000#32] }) =
      some (some (.read 0x60#7 4)) ∧
    look State.outstanding (step { at_ .v12 with inbox := [.request 0x40000000#32] }) =
      some (some (.read 0x60#7 6)) := by decide
/-- P1 (the source's frame): EXECUTE 0x80000200 on V10, Now() = 7. -/
theorem test_execute :
    look State.trace (step { at_ .v10 with inbox := [.request 0x80000200#32], clockIn := [7] }) =
      some [.twReq 0x60#7 [0x40#8, 0x80#8, 0x00#8], .now 7, .hostReq (.execute false 0#2 0#8 512#16)] := by decide
/-- P5: COND_PERSIST 0xD0050080 latches REQ.GAIN = nz(5) = 1 and persist = 1. -/
theorem test_condPersist :
    look State.req (step { at_ .v8 with inbox := [.request 0xD0050080#32] }) =
      some { op := .condPersist, ref := 2#2, gain := true, value := 0x80#16, persist := true } := by decide
/-- Q3, Q4: a word with op = 00 has no step, a request while busy is not accepted. -/
theorem test_no_step :
    step { at_ .v8 with inbox := [.request 0x00001234#32] } = .next (at_ .v8) ∧
    exec (.execute false 0#2 0#8 512#16) { at_ .v8 with seq := .pollRead } =
      .next { at_ .v8 with seq := .pollRead } := ⟨rfl, rfl⟩

/-- A write outstanding, as after an EXECUTE, with its persist flag and the completion status to come. -/
def writing (v : Variant) (persist : Bool) (frame : List Byte) (st : Byte) : State :=
  { at_ v with
    seq := .wrPend
    req := { op := .execute, ref := 0#2, gain := false, value := 0#16, persist := persist }
    outstanding := some (.write 0x60#7 frame)
    inbox := [.writeDone st] }

/-- Q6 and Q8: persist = 0. -/
theorem test_wrvol8 :
    look (fun t => (t.res.ok, t.seq)) (step (writing .v8 false [0x40#8, 0x2A#8] 0#8)) = some (true, .done) ∧
    look (fun t => (t.res.ok, t.seq)) (step (writing .v8 false [0x40#8, 0x2A#8] 1#8)) = some (false, .done) := by
  decide
/-- R57: the device's volatile settings are those of the frame 4C 55 40 (E37). -/
theorem test_wrvol10 :
    look (fun t => t.device.vol) (step (writing .v10 false [0x4C#8, 0x55#8, 0x40#8] 0#8)) =
      some { ref := 1#2, gain := true, value := 0x155#16 } := by decide
theorem test_wrvol12 :
    look (fun t => t.device.vol) (step (writing .v12 false [0x5C#8, 0xAB#8, 0xC0#8] 0#8)) =
      some { ref := 3#2, gain := true, value := 0xABC#16 } := by decide
/-- Q5 and Q7: persist = 1, the two statuses. -/
theorem test_wrall8 :
    look (fun t => (t.res.ok, t.seq)) (step (writing .v8 true [0x60#8, 0x10#8] 0#8)) =
      some (true, .transactionSent) ∧
    look (fun t => (t.res.ok, t.seq)) (step (writing .v8 true [0x60#8, 0x10#8] 0xFF#8)) = some (false, .done) := by
  decide
/-- P6: a status of 2 on 70 FF C0 is a failure, no poll. -/
theorem test_wrall10 :
    look (fun t => (t.res.ok, t.seq)) (step (writing .v10 true [0x70#8, 0xFF#8, 0xC0#8] 2#8)) =
      some (false, .done) := by decide
/-- R57, R65: a write-all frame begins the non-volatile write of 7C AB C0. -/
theorem test_wrall12 :
    look (fun t => t.device.nvWrite) (step (writing .v12 true [0x7C#8, 0xAB#8, 0xC0#8] 0#8)) =
      some (some { ref := 3#2, gain := true, value := 0xABC#16 }) := by decide

/-- A status read outstanding in a state that waits for it. -/
def reading (v : Variant) (q : Seq) (r : Request) (frame : List Byte) : State :=
  { at_ v with
    seq := q
    req := r
    outstanding := some (.read 0x60#7 (statusLen v))
    inbox := [.readDone frame] }

def reqOf (op : Op) (ref : Ref) (gain : Bool) (value : Value) : Request :=
  { op := op, ref := ref, gain := gain, value := value, persist := true }

/-- Q9, Q10: only bit 7 of byte 0 ends the wait. -/
theorem test_statusN_poll :
    look State.seq (step (reading .v8 .pollRead (reqOf .execute 0#2 false 0#16) [0x80#8, 0#8, 0#8, 0#8])) =
      some .pollingReady ∧
    look State.seq (step (reading .v8 .pollRead (reqOf .execute 0#2 false 0#16)
      [0x7F#8, 0xFF#8, 0xFF#8, 0xFF#8])) = some .transactionSent := by decide
/-- Q11, Q13, Q15: match; other reference; an out-of-range request never matches and 0x80 is what is written. -/
theorem test_statusN_compare :
    look State.seq (step (reading .v8 .cpRead (reqOf .condPersist 2#2 false 0x80#16)
      [0x00#8, 0x00#8, 0x10#8, 0x80#8])) = some .done ∧
    look State.outstanding (step (reading .v8 .cpRead (reqOf .condPersist 2#2 false 0x80#16)
      [0xD0#8, 0x80#8, 0xC8#8, 0x80#8])) = some (some (.write 0x60#7 [0x70#8, 0x80#8])) ∧
    look State.outstanding (step (reading .v8 .cpRead (reqOf .condPersist 2#2 false 0x180#16)
      [0xD0#8, 0x80#8, 0xD0#8, 0x80#8])) = some (some (.write 0x60#7 [0x70#8, 0x80#8])) := by decide
/-- R135's example on V12, and P7: a left-aligned read-back does not match 0x800, a right-aligned one does. -/
theorem test_statusW :
    look State.seq (step (reading .v12 .pollRead (reqOf .execute 0#2 false 0#16)
      [0xD9#8, 0xAB#8, 0xC0#8, 0xD9#8, 0xAB#8, 0xC0#8])) = some .pollingReady ∧
    look State.seq (step (reading .v12 .cpRead (reqOf .condPersist 0#2 false 0x800#16)
      [0xC0#8, 0x80#8, 0x00#8, 0xC0#8, 0x80#8, 0x00#8])) = some .wrPend ∧
    look State.seq (step (reading .v12 .cpRead (reqOf .condPersist 0#2 false 0x800#16)
      [0xC0#8, 0x08#8, 0x00#8, 0xC0#8, 0x08#8, 0x00#8])) = some .done := by decide
/-- P3, request 2: host.rsp(ok = 1, status = 0xC900A5C900A5). -/
theorem test_respond_status :
    look State.trace (step { at_ .v8 with
      seq := .done
      res := { ok := true, status := statusOfNarrow 0xC9#8 0xA5#8 0xC9#8 0xA5#8 } }) =
      some [.hostRsp true (some 0xC900A5C900A5#48)] := by decide

/-- Section 2.5: the timeout test, with a wrap, at 99 and 100, and with CLOCK_W = 8. -/
theorem test_timeout :
    elapsed 32 1099 1000 = 99 ∧ timedOut 32 1100 1000 = true ∧ timedOut 32 1099 1000 = false ∧
    elapsed 32 0x53 0xFFFFFFF0 = 99 ∧ timedOut 32 0x54 0xFFFFFFF0 = true ∧ elapsed 32 499 500 = 0xFFFFFFFF ∧
    elapsed 8 43 200 = 99 ∧ timedOut 8 44 200 = true := by decide

/-! ## Witnesses: a concrete case that meets the hypotheses of each statement that has any -/

/-- DecodeInvertsEncode, at VMAX of the variant. -/
theorem witness_DecodeInvertsEncode :
    (cfgOf .v10).wf = true ∧ Instr.wf (.wrall10 3#2 true 1023#16) = true ∧
    Instr.fits (cfgOf .v10).variant (.wrall10 3#2 true 1023#16) = true := by decide

theorem witness_WireFramesHaveOneMeaning :
    decode (cfgOf .v12) .command [0x7C#8, 0xFF#8, 0xF0#8] = .ok (.wrall12 3#2 true 4095#16) ∧
    decode (cfgOf .v8) .status [1#8, 2#8, 3#8, 4#8] = .ok (.statusN 1#8 2#8 3#8 4#8) := ⟨rfl, rfl⟩

/-- RequestWordIgnoresReservedBits: each clause at the ends of its range. -/
theorem witness_RequestWordIgnoresReservedBits :
    (0xC0000000#32).toNat / 2 ^ 30 = 3 ∧ (0xFFFFFFFF#32).toNat / 2 ^ 30 = 3 ∧
    (0x40000000#32).toNat / 2 ^ 30 = 1 ∧ (0x7FFFFFFF#32).toNat / 2 ^ 30 = 1 ∧
    (0x3FFFFFFF#32).toNat / 2 ^ 30 = 0 := by decide

/-- EncoderTruncatesSilently: L1-7 with k = 0 on V8 (E6), k = 1 on V10 (E20). -/
theorem witness_EncoderTruncatesSilently :
    (0x100#16).toNat % 2 ^ width .v8 = (0#16).toNat % 2 ^ width .v8 ∧
    (1025#16).toNat % 2 ^ width .v10 = (1#16).toNat % 2 ^ width .v10 := by decide

theorem witness_ExtractInvertsEncoderInRange : (4095#16).toNat ≤ vmax .v12 ∧ ¬ (4096#16).toNat ≤ vmax .v12 := by
  decide

theorem witness_EncoderIsInjective :
    (cfgOf .v8).cmdWriteAll ≠ 2#3 ∧
    commandFrame (cfgOf .v8) 1#2 true 0x1A5#16 true = commandFrame (cfgOf .v8) 1#2 true 0xA5#16 true := by decide

/-- NonzeroGainIsGainOn: 1 and 255 are both gain on, 0 is not; an idle instance that has ENCODE.8. -/
theorem witness_NonzeroGainIsGainOn :
    ((1#8 = 0#8) ↔ (255#8 = 0#8)) ∧ ((0#8 = 0#8) ↔ (0#8 = 0#8)) ∧ (at_ .v8).seq = .idle ∧
    Instr.fits (at_ .v8).cfg.variant (.encode8 true 0#2 255#8 0#16) = true := by decide

theorem witness_StatusDecodeKeepsConfigBytes :
    [0xC9#8, 0xA5#8, 0xC9#8, 0xA5#8].length = statusLen (cfgOf .v8).variant ∧ (cfgOf .v8).variant = .v8 ∧
    [0#8, 1#8, 2#8, 3#8, 4#8, 5#8].length = statusLen (cfgOf .v10).variant ∧ (cfgOf .v10).variant = .v10 := by
  decide

/-- EncodePortGivesTheFrame, DecodePortGivesTheRecord: an instance of each variant. -/
theorem witness_variants :
    (at_ .v8).cfg.variant = .v8 ∧ (at_ .v10).cfg.variant = .v10 ∧ (at_ .v12).cfg.variant = .v12 := by decide

/-- StatusReadIsAccepted, ExecuteIsAccepted, CondPersistReadsFirst: an idle state, with and without a listed
clock sample. -/
theorem witness_idle :
    (at_ .v8).seq = .idle ∧ (at_ .v10).seq = .idle ∧ { at_ .v8 with clockIn := [7] }.clockIn = 7 :: [] := by decide

theorem witness_BusyRequestsAreNotAccepted : { at_ .v8 with seq := .pollRead }.seq ≠ .idle := by decide

/-- WriteCompletionFollowsStatus: each of the six frames outstanding. -/
theorem witness_WriteCompletionFollowsStatus :
    (writing .v8 false (encode (at_ .v8).cfg (.wrvol8 1#2 true 255#16)) 0#8).outstanding =
      some (.write (at_ .v8).cfg.addr (encode (at_ .v8).cfg (.wrvol8 1#2 true 255#16))) ∧
    (writing .v10 false (encode (at_ .v10).cfg (.wrvol10 1#2 true 1023#16)) 0#8).seq = .wrPend ∧
    Instr.fits .v10 (.wrvol10 1#2 true 1023#16) ∧ Instr.port (.wrvol10 1#2 true 1023#16) = .command ∧
    Instr.fits .v12 (.wrvol12 1#2 true 4095#16) ∧ Instr.port (.wrvol12 1#2 true 4095#16) = .command ∧
    Instr.fits .v8 (.wrall8 1#2 true 255#16) ∧ Instr.port (.wrall8 1#2 true 255#16) = .command ∧
    Instr.fits .v10 (.wrall10 1#2 true 1023#16) ∧ Instr.port (.wrall10 1#2 true 1023#16) = .command ∧
    Instr.fits .v12 (.wrall12 1#2 true 4095#16) ∧ Instr.port (.wrall12 1#2 true 4095#16) = .command ∧
    Instr.fits .v8 (.wrvol8 1#2 true 255#16) ∧ Instr.port (.wrvol8 1#2 true 255#16) = .command := by decide

/-- The same, complete for one frame of each width: they run, on either status. -/
theorem witness_write_runs :
    (look State.seq (exec (.wrvol8 1#2 true 255#16)
      (writing .v8 false (encode (at_ .v8).cfg (.wrvol8 1#2 true 255#16)) 0#8))).isSome ∧
    (look State.seq (exec (.wrall10 1#2 true 1023#16)
      { writing .v10 true (encode (at_ .v10).cfg (.wrall10 1#2 true 1023#16)) 0#8 with
        twStatus := 1#8 })).isSome ∧
    (look State.seq (exec (.wrall12 1#2 true 4095#16)
      (writing .v12 true (encode (at_ .v12).cfg (.wrall12 1#2 true 4095#16)) 0#8))).isSome := by decide

/-- DeliveredFrameSetsTheDevice: status 0, a device with no non-volatile write, a well-formed frame that runs. -/
theorem witness_DeliveredFrameSetsTheDevice :
    let s := writing .v12 true (encode (at_ .v12).cfg (.wrall12 1#2 true 4095#16)) 0#8
    s.twStatus = 0#8 ∧ s.device.nvWrite = none ∧ s.lateWrites = [] ∧ Instr.wf (.wrall12 1#2 true 4095#16) = true ∧
    (look State.seq (exec (.wrall12 1#2 true 4095#16) s)).isSome ∧
    Instr.wf (.wrvol8 1#2 true 255#16) = true ∧
    (look State.seq (exec (.wrvol8 1#2 true 255#16)
      (writing .v8 false (encode (at_ .v8).cfg (.wrvol8 1#2 true 255#16)) 0#8))).isSome := by decide

/-- StatusReadDeliversTheRecord, PollLooksAtReadyBitOnly: the awaiting states, per variant, and the bytes on
either side of the ready bit. -/
theorem witness_awaiting :
    { at_ .v8 with seq := .srRead }.seq = .srRead ∧ { at_ .v12 with seq := .pollRead }.seq = .pollRead ∧
    128 ≤ (128#8).toNat ∧ ¬ 128 ≤ (127#8).toNat := by decide

/-- CondPersistComparesNarrow and Wide: a matching request and one that differs in its top value bit. -/
theorem witness_CondPersistCompares :
    let s := { at_ .v8 with seq := .cpRead, req := reqOf .condPersist 2#2 true 0x80#16 }
    s.seq = .cpRead ∧ s.cfg.variant = .v8 ∧
    ((0xD1#8).toNat / 8 % 4 = s.req.ref.toNat ∧ ((0xD1#8).toNat % 2 = 1 ↔ s.req.gain = true) ∧
      (0x80#8).toNat = s.req.value.toNat) ∧
    ¬ (0x81#8).toNat = s.req.value.toNat ∧
    (0x80#8).toNat * 256 + (0x00#8).toNat = (0x8000#16).toNat ∧
    ¬ (0x80#8).toNat * 256 + (0x00#8).toNat = (0x0000#16).toNat := by decide

/-- CondPersistComparesWide: V10 and V12 in CP_READ, at VMAX, a match and a mismatch in each. -/
theorem witness_CondPersistComparesWide :
    let s := { at_ .v10 with seq := .cpRead, req := reqOf .condPersist 3#2 true 0x03FF#16 }
    let t := { at_ .v12 with seq := .cpRead, req := reqOf .condPersist 0#2 false 0x0FFF#16 }
    s.seq = .cpRead ∧ s.cfg.variant = .v10 ∧ t.seq = .cpRead ∧ t.cfg.variant = .v12 ∧
    ((0xD9#8).toNat / 8 % 4 = s.req.ref.toNat ∧ ((0xD9#8).toNat % 2 = 1 ↔ s.req.gain = true) ∧
      (0x03#8).toNat * 256 + (0xFF#8).toNat = s.req.value.toNat) ∧
    ¬ (0xC9#8).toNat / 8 % 4 = s.req.ref.toNat ∧
    ((0xC0#8).toNat / 8 % 4 = t.req.ref.toNat ∧ ((0xC0#8).toNat % 2 = 1 ↔ t.req.gain = true) ∧
      (0x0F#8).toNat * 256 + (0xFF#8).toNat = t.req.value.toNat) ∧
    ¬ ((0xC1#8).toNat % 2 = 1 ↔ t.req.gain = true) := by decide

/-- TimeoutIsTestedBeforeEveryPoll: 99 ms and 100 ms across a wrap (section 2.5). -/
theorem witness_TimeoutIsTestedBeforeEveryPoll :
    let s := { at_ .v8 with seq := .transactionSent, t0 := 0xFFFFFFF0, clockIn := [0x53] }
    s.inbox = [] ∧ s.clockIn = 0x53 :: [] ∧ msSince s.cfg.clockW s.t0 0x53 = 99 ∧
    msSince s.cfg.clockW s.t0 0x54 = 100 := by decide

theorem witness_ElapsedTimeSurvivesWrap : 255 < 2 ^ 8 ∧ 0 < 2 ^ 8 := by decide

/-- OperationEndsWithOneResult: the three clauses. -/
theorem witness_OperationEndsWithOneResult :
    { at_ .v8 with seq := .pollingTimedOut }.inbox = [] ∧
    { at_ .v8 with seq := .done, req := reqOf .execute 0#2 false 0#16 }.req.op ≠ .statusRead ∧
    { at_ .v8 with seq := .done }.req.op = .statusRead := by decide

theorem witness_WaitingChangesNothing : (at_ .v8).inbox = [] ∧ (at_ .v8).seq = .idle := by decide

/-- StepRunsTheDecodedInstruction: an event of each kind whose bytes decode. -/
theorem witness_StepRunsTheDecodedInstruction :
    decode (at_ .v8).cfg .request (bytes32 0x40000000#32) = .ok .statusRead ∧
    decode (at_ .v8).cfg .encodePort (bytes32 ((0x280101A5#30).setWidth 32)) =
      .ok (.encode8 true 1#2 1#8 0x1A5#16) ∧
    decode (at_ .v8).cfg .decodePort (bytes48 0xC0FFE9800000#48) = .ok (.decodeN 0xC0#8 0xFF#8 0xE9#8 0x80#8) ∧
    decode (at_ .v8).cfg .status [1#8, 2#8, 3#8, 4#8] = .ok (.statusN 1#8 2#8 3#8 4#8) ∧
    (writing .v8 true [0x60#8, 0x10#8] 0#8).outstanding = some (.write 0x60#7 [0x60#8, 0x10#8]) ∧
    decode (at_ .v8).cfg .command [0x60#8, 0x10#8] = .ok (.wrall8 0#2 false 0x10#16) :=
  ⟨rfl, rfl, rfl, rfl, rfl, rfl⟩

theorem witness_NoOperationHasNoStep :
    { at_ .v8 with inbox := [.request 0x3FFFFFFF#32] }.inbox = .request 0x3FFFFFFF#32 :: [] ∧
    (0x3FFFFFFF#32).toNat < 2 ^ 30 := by decide

/-- A write-all of 1, 2x, 0xA5 abandoned by a reset to an instance of V12, with events to come. -/
def abandoned (inbox : List Event) : State :=
  { at_ .v12 with
    inbox := inbox
    lateWrites := [{ cfg := (at_ .v8).cfg, frame := [0x6C#8, 0xA5#8] }] }

/-- LateAnswersAreDroppedInIdle: a write status with nothing abandoned and with an abandoned write, and a frame of
the length of another variant (R190, R57). -/
theorem witness_LateAnswersAreDroppedInIdle :
    (at_ .v8).seq = .idle ∧ (at_ .v8).outstanding = none ∧ (at_ .v8).lateWrites = [] ∧
    (abandoned [.writeDone 0#8]).seq = .idle ∧ (abandoned [.writeDone 0#8]).outstanding = none ∧
    (abandoned [.writeDone 0#8]).lateWrites = { cfg := (at_ .v8).cfg, frame := [0x6C#8, 0xA5#8] } :: [] ∧
    [0x80#8, 0#8, 0#8, 0#8].length ≠ statusLen (abandoned []).cfg.variant := by decide

/-- R190: the abandoned frame acts on the device, a late frame of the old length is dropped. -/
theorem test_late_answers :
    look (fun t => (t.seq, t.device.vol, t.device.nvWrite)) (step (abandoned [.writeDone 0#8])) =
      some (.idle, { ref := 1#2, gain := true, value := 0xA5#16 },
        some { ref := 1#2, gain := true, value := 0xA5#16 }) ∧
    step (abandoned [.readDone [0x80#8, 0#8, 0#8, 0#8]]) = .next (abandoned []) := ⟨by decide, rfl⟩

/-- AbandonedWriteStillReachesTheDevice: a reset to V12 while the write of an EXECUTE is outstanding. -/
theorem witness_AbandonedWriteStillReachesTheDevice :
    let s := { writing .v8 true [0x60#8, 0x00#8] 0#8 with
      inbox := [.reset (cfgOf .v12), .writeDone 0#8] }
    BlockInv s ∧ s.seq = .wrPend ∧ (cfgOf .v12).wf = true ∧ s.lateWrites = [] ∧ s.device.nvWrite = none ∧
    s.inbox = .reset (cfgOf .v12) :: .writeDone 0#8 :: [] ∧ s.req.persist = true :=
  ⟨⟨rfl, by decide, rfl, .inl rfl⟩, rfl, rfl, rfl, rfl, rfl, rfl⟩

/-- RefusalsAreTheseByName: the six clauses. -/
theorem witness_RefusalsAreTheseByName :
    (Instr.port (.wrvol8 0#2 false 0#16) = .command ∧ Instr.fits (at_ .v8).cfg.variant (.wrvol8 0#2 false 0#16) ∧
      (at_ .v8).seq ≠ .wrPend) ∧
    Instr.fits (at_ .v10).cfg.variant (.encode8 true 0#2 0#8 0#16) = false ∧
    (reading .v8 .srRead (reqOf .statusRead 0#2 false 0#16) [0#8, 0#8, 0#8]).seq ≠ .idle ∧
    [0#8, 0#8, 0#8].length ≠ statusLen (at_ .v8).cfg.variant ∧
    { at_ .v8 with seq := .done, inbox := [.writeDone 0#8] }.seq ≠ .idle ∧
    { at_ .v8 with seq := .done, inbox := [.writeDone 0#8] }.outstanding = none ∧
    [0#8, 0#8, 0#8, 0#8].length = statusLen (writing .v8 true [] 0#8).cfg.variant ∧
    (writing .v8 true [] 0#8).seq = .wrPend ∧
    { Cfg.default with cmdWriteAll := 2#3 }.cmdWriteAll = 2#3 ∧ { Cfg.default with clockW := 6 }.clockW < 7 := by
  decide

/-- DeviceStoresAndRestores: a non-volatile write in progress, and none. -/
theorem witness_DeviceStoresAndRestores :
    let d := { State.reset.device with nvWrite := some Settings.zero }
    { at_ .v8 with device := d, inbox := [.nvWriteEnds] }.device.nvWrite = some Settings.zero ∧
    (at_ .v8).device.nvWrite = none := by decide

theorem witness_ResetAbandonsTheOperation :
    { writing .v8 true [0x60#8, 0x10#8] 0#8 with inbox := [.reset (cfgOf .v12)] }.inbox =
      .reset (cfgOf .v12) :: [] ∧ (cfgOf .v12).wf = true := by decide

/-- An idle instance meets the invariant, the pairing and R137's invariant. -/
theorem witness_invariants (v : Variant) : BlockInv (at_ v) ∧ Paired (at_ v) ∧ okTellsStatus (at_ v) := by
  cases v <;> exact ⟨⟨rfl, by decide, rfl, trivial⟩, ⟨rfl, rfl⟩, trivial⟩

/-- A write in progress, with its request on record, meets the invariant: what a step keeps is not only IDLE. -/
theorem witness_invariant_writing :
    BlockInv { writing .v8 true [0x60#8, 0x00#8] 0#8 with trace := [.hostReq (.execute true 0#2 0#8 0#16)] } :=
  ⟨rfl, by decide, rfl, .inl rfl⟩

/-- StepKeepsInvariant, StepKeepsPairing, ResultTellsWriteStatusOnly, SequencerFollowsTheTable,
ConfigurationIsImmutable, StepsAddAdmittedEventsOnly: a step that answers a next state and is no reset. -/
theorem witness_step_next :
    (look State.seq (step { at_ .v8 with inbox := [.request 0xA0000010#32] })) = some .wrPend ∧
    resetNext { at_ .v8 with inbox := [.request 0xA0000010#32] } = false := by decide

/-- PermittedEventsNeverStop: the permitted answer of a write. -/
theorem witness_PermittedEventsNeverStop :
    ∀ e rest, (writing .v8 true [0x60#8, 0x00#8] 7#8).inbox = e :: rest →
      Permitted (writing .v8 true [0x60#8, 0x00#8] 7#8) e := by
  intro e rest h
  cases h
  exact .inl rfl

/-- ResultIsFinalAfterTheWrite: a step from each end of the states it names. -/
theorem witness_ResultIsFinalAfterTheWrite :
    look State.seq (step { at_ .v8 with seq := .transactionSent, clockIn := [500] }) = some .pollingTimedOut ∧
    look State.seq (step { at_ .v8 with seq := .done }) = some .idle := by decide

/-- OneTransactionAtATime: COND_PERSIST's compare step takes an answer and issues the write (Q13). -/
theorem witness_OneTransactionAtATime :
    BlockInv (reading .v8 .cpRead (reqOf .condPersist 2#2 false 0x80#16) [0xD0#8, 0x80#8, 0xC8#8, 0x80#8]) ∧
    look State.trace (step { reading .v8 .cpRead (reqOf .condPersist 2#2 false 0x80#16)
      [0xD0#8, 0x80#8, 0xC8#8, 0x80#8] with clockIn := [9] }) =
      some [.twReq 0x60#7 [0x70#8, 0x80#8], .now 9, .trRsp [0xD0#8, 0x80#8, 0xC8#8, 0x80#8]] :=
  ⟨⟨rfl, by decide, rfl, ⟨rfl, rfl⟩⟩, by decide⟩

/-- What an EXECUTE leaves behind in an idle instance: registers, a device, observations. -/
def afterExecute (inbox : List Event) (clockIn : List Nat) : State :=
  { at_ .v8 with
    req := reqOf .execute 1#2 true 0xA5#16
    t0 := 9
    res := { (at_ .v8).res with ok := true }
    draws := 5
    inbox := inbox
    clockIn := clockIn
    trace := [.hostRsp true none, .twRsp 0#8, .twReq 0x60#7 [0x6C#8, 0xA5#8], .now 9]
    device := { State.reset.device with vol := { ref := 1#2, gain := true, value := 0xA5#16 } } }

/-- OperationsShareNothing: an idle state after nothing and one after an EXECUTE, with one request to come that
samples the clock, and a listed sample for each of two steps. -/
theorem witness_OperationsShareNothing :
    let s := { at_ .v8 with inbox := [.request 0xA0000010#32], clockIn := [7, 8] }
    let t := afterExecute [.request 0xA0000010#32] [7, 8]
    BlockInv s ∧ BlockInv t ∧ SameLive s t ∧ 2 ≤ s.clockIn.length ∧
    s.trace ≠ t.trace ∧ s.device ≠ t.device ∧ s.req ≠ t.req :=
  ⟨⟨rfl, by decide, rfl, trivial⟩, ⟨rfl, by decide, rfl, trivial⟩, ⟨rfl, rfl, rfl, rfl, rfl, trivial⟩,
    by decide, by decide, by decide, by decide⟩

/-- An idle instance of V8 with a script. -/
def scripted (inbox : List Event) (clockIn : List Nat) : State :=
  { at_ .v8 with inbox := inbox, clockIn := clockIn }

theorem scripted_inv (inbox : List Event) (clockIn : List Nat) : BlockInv (scripted inbox clockIn) :=
  ⟨rfl, Nat.two_pow_pos 32, rfl, trivial⟩

/-- WriteWithoutPollTakesThreeSteps: P9's two requests, persist = 0 with status 0, persist = 1 with status 1. -/
theorem witness_WriteWithoutPollTakesThreeSteps :
    let s := scripted [.request 0x8000002A#32, .writeDone 0#8, .tick] []
    let s' := scripted [.request 0xA0000010#32, .writeDone 1#8, .tick] []
    BlockInv s ∧ s.seq = .idle ∧ s.inbox = .request 0x8000002A#32 :: .writeDone 0#8 :: .tick :: [] ∧
    decode s.cfg .request (bytes32 0x8000002A#32) = .ok (.execute false 0#2 0#8 0x2A#16) ∧
    decode s'.cfg .request (bytes32 0xA0000010#32) = .ok (.execute true 0#2 0#8 0x10#16) ∧ 1#8 ≠ 0#8 :=
  ⟨scripted_inv _ _, rfl, rfl, rfl, rfl, by decide⟩

/-- MatchingCondPersistWritesNothing: P4. -/
theorem witness_MatchingCondPersistWritesNothing :
    let frame := [0xD0#8, 0x80#8, 0xD0#8, 0x80#8]
    let d := statusOfNarrow 0xD0#8 0x80#8 0xD0#8 0x80#8
    let s := scripted [.request 0xD0000080#32, .readDone frame, .tick] []
    BlockInv s ∧ s.seq = .idle ∧ s.cfg.variant = .v8 ∧
    decode s.cfg .request (bytes32 0xD0000080#32) = .ok (.condPersist 2#2 0#8 0x80#16) ∧
    d.nvcfg.toNat / 8 % 4 = (2#2).toNat ∧ (d.nvcfg.toNat % 2 = 1 ↔ 0#8 ≠ 0#8) ∧ d.nvval = 0x80#16 :=
  ⟨scripted_inv _ _, rfl, rfl, rfl, rfl, by decide, rfl⟩

/-- PersistingWriteTimesOutSilently: P3's samples and answers, with one poll at 99 ms and the end at 100 ms. -/
theorem witness_PersistingWriteTimesOutSilently :
    let frames := [[0x49#8, 0xA5#8, 0x49#8, 0x00#8]]
    let s := scripted (.request 0xA80101A5#32 :: .writeDone 0#8 :: pollScript frames ++ [.tick, .tick, .tick])
      [0xFFFFFFF0, 0x53, 0x54]
    BlockInv s ∧ s.seq = .idle ∧
    decode s.cfg .request (bytes32 0xA80101A5#32) = .ok (.execute true 1#2 1#8 0x1A5#16) ∧
    (∀ f ∈ frames, answersReady s.cfg.variant false f) ∧ [0x53].length = frames.length ∧
    (∀ t ∈ [0x53], msSince s.cfg.clockW 0xFFFFFFF0 t < 100) ∧
    100 ≤ msSince s.cfg.clockW 0xFFFFFFF0 0x54 ∧ s.clockIn = 0xFFFFFFF0 :: [0x53] ++ 0x54 :: [] := by
  refine ⟨scripted_inv _ _, rfl, rfl, ?_, rfl, by decide, by decide, rfl⟩
  intro f hf
  simp only [List.mem_singleton] at hf
  subst hf
  exact ⟨rfl, _, _, rfl, by decide⟩

/-- PersistingWriteEndsReady: P5's second half, ready at once, on an EXECUTE (no busy poll before it). -/
theorem witness_PersistingWriteEndsReady :
    let final := [0xD1#8, 0x80#8, 0xD1#8, 0x80#8]
    let s := scripted (.request 0xA0000010#32 :: .writeDone 0#8 :: pollScript ([] ++ [final]) ++ [.tick, .tick])
      [40, 41]
    BlockInv s ∧ s.seq = .idle ∧
    decode s.cfg .request (bytes32 0xA0000010#32) = .ok (.execute true 0#2 0#8 0x10#16) ∧
    answersReady s.cfg.variant true final ∧ [41].length = ([] : List (List Byte)).length + 1 ∧
    (∀ t ∈ [41], msSince s.cfg.clockW 40 t < 100) ∧ s.clockIn = 40 :: [41] ++ [] :=
  ⟨scripted_inv _ _, rfl, rfl, ⟨rfl, _, _, rfl, by decide⟩, rfl, by decide, rfl⟩

/-! ## Infinite runs -/

/-- The state after a step; where the machine stops, the same state. -/
def goOn (s : State) : State :=
  match step s with
  | .next t => t
  | _ => s

/-- The run from a state in which the environment supplies nothing more. -/
def runOf (s : State) : Nat → State
  | 0 => s
  | n + 1 => goOn (runOf s n)

/-- A persisting EXECUTE whose first poll finds the device ready, and nothing after it (P5's second half). -/
def oneWrite : State :=
  scripted [.request 0xA0000010#32, .writeDone 0#8, .tick, .readDone [0xD1#8, 0x80#8, 0xD1#8, 0x80#8], .tick, .tick]
    [40, 41]

theorem oneWrite_rests (n : Nat) : runOf oneWrite (n + 6) = runOf oneWrite 6 := by
  induction n with
  | zero => rfl
  | succ n ih =>
    show goOn (runOf oneWrite (n + 6)) = _
    rw [ih]
    rfl

/-- What holds of its first six states and of the last one for ever holds of all. -/
theorem oneWrite_all {P : State → Prop} (h : ∀ n, n < 7 → P (runOf oneWrite n)) (n : Nat) :
    P (runOf oneWrite n) := by
  by_cases hn : n < 7
  · exact h n hn
  · obtain ⟨k, rfl⟩ : ∃ k, n = k + 6 := ⟨n - 6, by omega⟩
    rw [oneWrite_rests]
    exact h 6 (by omega)

theorem oneWrite_at_rest (n : Nat) (h : 6 ≤ n) : runOf oneWrite n = runOf oneWrite 6 := by
  obtain ⟨k, rfl⟩ : ∃ k, n = k + 6 := ⟨n - 6, by omega⟩
  exact oneWrite_rests k

/-- OperationsEndUnderFairness: a run with a whole operation in it meets every hypothesis. -/
theorem witness_OperationsEndUnderFairness :
    IsRun (runOf oneWrite) ∧ BlockInv (runOf oneWrite 0) ∧ TransportAnswers (runOf oneWrite) ∧
    ClockAdvances (runOf oneWrite) ∧ BlockGetsTurns (runOf oneWrite) ∧
    (runOf oneWrite 3).seq = .pollRead := by
  have rest : (runOf oneWrite 6).seq = .idle ∧ (runOf oneWrite 6).outstanding = none ∧
      (runOf oneWrite 6).inbox = [] := ⟨rfl, rfl, rfl⟩
  refine ⟨fun n => ?_, scripted_inv _ _, fun n hn => ?_, fun n hn _ => ?_, fun n => ?_, rfl⟩
  · have steps : ∃ t, step (runOf oneWrite n) = .next t := by
      refine oneWrite_all (P := fun s => ∃ t, step s = .next t) (fun k hk => ?_) n
      match k, hk with
      | 0, _ => exact ⟨_, rfl⟩
      | 1, _ => exact ⟨_, rfl⟩
      | 2, _ => exact ⟨_, rfl⟩
      | 3, _ => exact ⟨_, rfl⟩
      | 4, _ => exact ⟨_, rfl⟩
      | 5, _ => exact ⟨_, rfl⟩
      | 6, _ => exact ⟨_, rfl⟩
    obtain ⟨t, ht⟩ := steps
    exact ⟨t, [], [], ht, by simp [runOf, goOn, ht]⟩
  · match n with
    | 0 => exact absurd rfl hn
    | 1 => exact ⟨1, by omega, .inl ⟨rfl, _, rfl⟩⟩
    | 2 => exact absurd rfl hn
    | 3 => exact ⟨3, by omega, .inr ⟨.inr (.inr rfl), _, rfl⟩⟩
    | 4 => exact absurd rfl hn
    | 5 => exact absurd rfl hn
    | k + 6 => rw [oneWrite_at_rest _ (by omega)] at hn; exact absurd rest.2.1 hn
  · have h := hn (n + 6) (by omega)
    rw [oneWrite_at_rest _ (by omega)] at h
    simp [inPollLoop, rest.1] at h
  · exact ⟨n + 6, by omega, by rw [oneWrite_at_rest _ (by omega)]; exact .inl (by rw [rest.2.2]; rfl)⟩

/-- StalledClockPollsForEver: an instance before a timeout test with nothing listed. -/
theorem witness_StalledClockPollsForEver :
    let s := { at_ .v8 with
      seq := .transactionSent
      req := reqOf .execute 0#2 false 0#16
      t0 := 7
      res := { (at_ .v8).res with ok := true } }
    BlockInv s ∧ s.seq = .transactionSent ∧ s.inbox = [] ∧ s.clockIn = [] :=
  ⟨⟨rfl, by decide, rfl, ⟨by decide, rfl, rfl⟩⟩, rfl, rfl, rfl⟩

/-- UnansweredTransactionWaitsForEver: a write outstanding, nothing to come. -/
theorem witness_UnansweredTransactionWaitsForEver :
    let s := { writing .v8 true [0x60#8, 0x00#8] 0#8 with inbox := [] }
    BlockInv s ∧ s.outstanding ≠ none ∧ s.inbox = [] :=
  ⟨⟨rfl, by decide, rfl, .inl rfl⟩, by decide, rfl⟩

end Sys2Proof.Tests
end

/-! ## Parameters -/

/-- Settles O1: each constant is computed, and VMAX is compared with WIDTH variant by variant. -/
theorem variantConstantsAreTheTable : Obligations.VariantConstantsAreTheTable := by
  refine ⟨⟨rfl, rfl, rfl⟩, ⟨rfl, rfl, rfl⟩, ⟨rfl, rfl, rfl⟩, ⟨rfl, rfl⟩, fun v => ?_⟩
  cases v <;> rfl

namespace Sys2Proof.Machine

/-! ## What the fetch tells of the state -/

/-- An instruction is decoded from the port its row belongs to. -/
theorem decode_port {c : Cfg} {p : Port} {bs : List Byte} {i : Instr} (h : decode c p bs = .ok i) :
    i.port = p := by
  cases p with
  | command =>
    simp only [decode, decodeCommand, decodeCmd8, decodeCmd10, decodeCmd12] at h
    repeat' split at h
    all_goals cases h <;> rfl
  | status =>
    simp only [decode, decodeStatus] at h
    split at h <;> cases h <;> rfl
  | request =>
    simp only [decode, decodeRequest] at h
    repeat' split at h
    all_goals cases h <;> rfl
  | encodePort =>
    simp only [decode, decodeEncodePort] at h
    repeat' split at h
    all_goals cases h <;> rfl
  | decodePort =>
    simp only [decode, decodeDecodePort] at h
    repeat' split at h
    all_goals cases h <;> rfl

/-- A command frame is presented only by the completion of a write (R91). -/
theorem eq_writeDone_of_fetch_command {e : Event} {s : State} {i : Instr} (h : fetch e s = some (.ok i))
    (hp : i.port = .command) : ∃ st, e = .writeDone st := by
  unfold fetch at h
  split at h
  · rename_i p bs hpres
    obtain rfl : .command = p := hp.symm.trans (decode_port (by simpa using h))
    cases e <;> simp_all [presented]
  · cases h

/-- The fetch reads nothing of the state but CFG, SEQ and the outstanding transaction. -/
theorem fetch_congr (e : Event) {s t : State} (hcfg : s.cfg = t.cfg) (hseq : s.seq = t.seq)
    (hout : s.outstanding = t.outstanding) : fetch e s = fetch e t := by
  simp only [fetch, presented, hcfg, hseq, hout]

/-- A listed sample is the same in two states with equal lists (R53). -/
theorem clockNow_congr {s t : State} (hcfg : s.cfg = t.cfg) (hclock : s.clockIn = t.clockIn)
    (hs : s.clockIn ≠ []) : clockNow s = clockNow t := by
  obtain ⟨c, cs, hc⟩ := List.exists_cons_of_ne_nil hs
  rw [clockNow_of_cons hc, clockNow_of_cons (hclock ▸ hc), hcfg]

end Sys2Proof.Machine

namespace Sys2Proof.Safety

open Sys2Proof Sys2Proof.Machine

/-! ## Every step keeps the invariant -/

/-- Taking an event from the inbox touches nothing the invariant speaks of. -/
theorem blockInv_arrival {s : State} (e : Event) (rest : List Event) (hi : BlockInv s) :
    BlockInv (latch e { s with inbox := rest }) := by
  obtain ⟨st, hst⟩ := latch_eq e { s with inbox := rest }
  rw [hst]
  exact ⟨hi.cfgAdmitted, hi.t0Fits, hi.outstandingIs, hi.latches⟩

/-- StartWrite on the latched operands (R132). -/
theorem blockInv_startWrite {s : State} (hcfg : s.cfg.wf = true)
    (hop : s.req.op = .execute ∨ (s.req.op = .condPersist ∧ s.req.persist = true)) :
    BlockInv (startWrite s.req.ref s.req.gain s.req.value s.req.persist s) :=
  ⟨hcfg, clockNow_lt s, rfl, hop⟩

/-- The completion of a write operation's frame (R133). -/
theorem blockInv_writeCompletes {s : State} (hcfg : s.cfg.wf = true) (ht0 : s.t0 < 2 ^ s.cfg.clockW)
    (hout : s.outstanding = none) (hop : s.req.op ≠ .statusRead) : BlockInv (writeCompletes s) := by
  rcases writeCompletes_cases s with ⟨_, h⟩ | ⟨_, hp, h⟩ | ⟨_, _, h⟩ <;> rw [h]
  · exact ⟨hcfg, ht0, hout, fun ho => absurd ho hop⟩
  · exact ⟨hcfg, ht0, hout, hop, hp, rfl⟩
  · exact ⟨hcfg, ht0, hout, fun ho => absurd ho hop⟩

/-- Where a write is outstanding, the operation is not STATUS_READ. -/
theorem BlockInv.op_of_wrPend {s : State} (hi : BlockInv s) (hq : s.seq = .wrPend) :
    s.req.op ≠ .statusRead := by
  have hl := hi.latches
  rw [latchesMatch, hq] at hl
  rcases hl with h | ⟨h, _⟩ <;> simp [h]

/-- In the poll loop and behind it the operation is a persisting write that has succeeded so far. -/
theorem BlockInv.latches_of_polling {s : State} (hi : BlockInv s)
    (hq : s.seq = .transactionSent ∨ s.seq = .pollRead ∨ s.seq = .pollingReady ∨ s.seq = .pollingTimedOut) :
    s.req.op ≠ .statusRead ∧ s.req.persist = true ∧ s.res.ok = true := by
  have hl := hi.latches
  rcases hq with hq | hq | hq | hq <;> simpa only [latchesMatch, hq] using hl

/-- COND_PERSIST awaits its status read with persist forced to 1 (R138). -/
theorem BlockInv.latches_of_cpRead {s : State} (hi : BlockInv s) (hq : s.seq = .cpRead) :
    s.req.op = .condPersist ∧ s.req.persist = true := by
  simpa only [latchesMatch, hq] using hi.latches

/-- Where the sequencer awaits no answer, nothing is outstanding. -/
theorem BlockInv.outstanding_eq_none {s : State} (hi : BlockInv s)
    (hq : s.seq = .idle ∨ s.seq = .transactionSent ∨ s.seq = .pollingReady ∨ s.seq = .pollingTimedOut ∨
      s.seq = .done) : s.outstanding = none := by
  have ho := hi.outstandingIs
  rcases hq with hq | hq | hq | hq | hq <;> simpa only [expectedTransaction, hq] using ho

theorem blockInv_ownStep {s : State} (hi : BlockInv s) : BlockInv (ownStep s) := by
  rcases ownStep_cases s with ⟨hq, h⟩ | ⟨hq, h⟩ | ⟨hq, h⟩ | ⟨_, h⟩ <;> rw [h]
  · have hl := hi.latches_of_polling (.inl hq)
    rcases timeoutTest_cases s with ⟨_, h⟩ | ⟨_, h⟩ <;> rw [h]
    · exact ⟨hi.cfgAdmitted, hi.t0Fits, hi.outstanding_eq_none (by simp [hq]), hl⟩
    · exact ⟨hi.cfgAdmitted, hi.t0Fits, rfl, hl⟩
  · obtain ⟨hop, _⟩ := hi.latches_of_polling (.inr (.inr hq))
    exact ⟨hi.cfgAdmitted, hi.t0Fits, hi.outstanding_eq_none (by tauto), fun ho => absurd ho hop⟩
  · exact ⟨hi.cfgAdmitted, hi.t0Fits, hi.outstanding_eq_none (by simp [hq]), trivial⟩
  · exact hi

theorem blockInv_compareStored {s : State} (d : DeviceStatus) (hcfg : s.cfg.wf = true)
    (ht0 : s.t0 < 2 ^ s.cfg.clockW) (hout : s.outstanding = none)
    (hreq : s.req.op = .condPersist ∧ s.req.persist = true) : BlockInv (compareStored d s) := by
  rcases compareStored_cases d s with ⟨_, h⟩ | ⟨_, h⟩ <;> rw [h]
  · exact ⟨hcfg, ht0, hout, fun _ => rfl⟩
  · rw [← hreq.2]
    exact blockInv_startWrite hcfg (.inr hreq)

theorem blockInv_takeStatus {f : List Byte} {d : DeviceStatus} {s t : State} (hi : BlockInv s)
    (h : takeStatus f d s = .next t) : BlockInv t := by
  rcases takeStatus_next h with ⟨_, rfl⟩ | ⟨hq, rfl⟩ | ⟨hq, rfl⟩ | ⟨_, rfl⟩
  · exact ⟨hi.cfgAdmitted, hi.t0Fits, rfl, fun _ => rfl⟩
  · exact blockInv_compareStored d hi.cfgAdmitted hi.t0Fits rfl (hi.latches_of_cpRead hq)
  · have hl := hi.latches_of_polling (.inr (.inl hq))
    cases hr : rdy d.vcfg
    · exact ⟨hi.cfgAdmitted, hi.t0Fits, rfl, hl⟩
    · exact ⟨hi.cfgAdmitted, hi.t0Fits, rfl, hl⟩
  · exact hi

theorem blockInv_carryWrite {v : Variant} {p : Bool} {f : List Byte} {x : Settings} {s t : State}
    (hi : BlockInv s) (h : carryWrite v p f x s = .next t) : BlockInv t := by
  obtain ⟨_, hq, _, rfl⟩ := carryWrite_next h
  exact blockInv_writeCompletes hi.cfgAdmitted hi.t0Fits rfl (hi.op_of_wrPend hq)

theorem blockInv_onPort {b : Bool} {o : Obs} {s t : State} (hi : BlockInv s) (h : onPort b o s = .next t) :
    BlockInv t := by
  obtain ⟨_, rfl⟩ := onPort_next h
  exact ⟨hi.cfgAdmitted, hi.t0Fits, hi.outstandingIs, hi.latches⟩

theorem blockInv_exec {i : Instr} {s t : State} (hi : BlockInv s) (h : exec i s = .next t) : BlockInv t := by
  cases i <;> simp only [exec] at h
  case statusRead =>
    rcases whenIdle_next h with ⟨_, rfl⟩ | ⟨_, rfl⟩
    · exact ⟨hi.cfgAdmitted, hi.t0Fits, rfl, rfl⟩
    · exact hi
  case execute =>
    rcases whenIdle_next h with ⟨_, rfl⟩ | ⟨_, rfl⟩
    · exact blockInv_startWrite hi.cfgAdmitted (.inl rfl)
    · exact hi
  case condPersist =>
    rcases whenIdle_next h with ⟨_, rfl⟩ | ⟨_, rfl⟩
    · exact ⟨hi.cfgAdmitted, hi.t0Fits, rfl, rfl, rfl⟩
    · exact hi
  case statusN =>
    unfold execStatusN at h
    split at h
    · exact blockInv_takeStatus hi h
    · cases h
  case statusW =>
    unfold execStatusW at h
    split at h
    · cases h
    · exact blockInv_takeStatus hi h
  case encode8 | encode10 | encode12 | decodeN | decodeW => exact blockInv_onPort hi h
  case wrvol8 | wrvol10 | wrvol12 | wrall8 | wrall10 | wrall12 => exact blockInv_carryWrite hi h

theorem blockInv_construct {c : Cfg} {s : State} (hc : c.wf = true) : BlockInv (construct c s) :=
  ⟨hc, Nat.mod_lt _ (Nat.two_pow_pos _), rfl, trivial⟩

/-- Every step keeps the invariant. -/
theorem blockInv_step {s t : State} (hi : BlockInv s) (h : step s = .next t) : BlockInv t := by
  rcases step_next h with ⟨_, rfl⟩ | ⟨e, rest, _, hstep⟩
  · exact blockInv_ownStep hi
  · have hi' := blockInv_arrival e rest hi
    rcases hstep with ⟨i, _, hx⟩ | ⟨_, rfl⟩ | ⟨_, henv⟩
    · exact blockInv_exec hi' hx
    · exact hi'
    · rcases environment_next henv with rfl | ⟨c, _, hc, rfl⟩ | ⟨d, n, l, rfl⟩
      · exact blockInv_ownStep hi'
      · exact blockInv_construct hc
      · exact ⟨hi'.cfgAdmitted, hi'.t0Fits, hi'.outstandingIs, hi'.latches⟩

/-! ## Two runs side by side (R32, R35) -/

/-- `s'` and `t'` come of `s` and `t` alike: they agree again, at most `k` clock samples were taken, and both have
seen the same new events. -/
structure Follows (k : Nat) (s t s' t' : State) : Prop where
  same : SameLive s' t'
  samples : s.clockIn.length ≤ s'.clockIn.length + k
  added : ∃ new, s'.trace = new ++ s.trace ∧ t'.trace = new ++ t.trace

/-- Two answers alike: next states that follow alike, or the same refusal. -/
inductive AnswersAlike (k : Nat) (s t : State) : Answer → Answer → Prop
  | next {s' t' : State} (h : Follows k s t s' t') : AnswersAlike k s t (.next s') (.next t')
  | refused (r : Refusal) : AnswersAlike k s t (.refused r) (.refused r)

theorem SameLive.follows {s t : State} (h : SameLive s t) (k : Nat) : Follows k s t s t :=
  ⟨h, Nat.le_add_right _ _, [], rfl, rfl⟩

theorem Follows.trans {j k : Nat} {s t s' t' s'' t'' : State} (h : Follows j s t s' t')
    (h' : Follows k s' t' s'' t'') : Follows (k + j) s t s'' t'' := by
  obtain ⟨new, hs, ht⟩ := h.added
  obtain ⟨new', hs', ht'⟩ := h'.added
  have := h.samples
  have := h'.samples
  exact ⟨h'.same, by omega, new' ++ new, by simp [hs', hs], by simp [ht', ht]⟩

theorem AnswersAlike.of_follows {j k : Nat} {s t s' t' : State} {a b : Answer} (h : Follows j s t s' t')
    (hab : AnswersAlike k s' t' a b) : AnswersAlike (k + j) s t a b := by
  cases hab with
  | next h' => exact .next (h.trans h')
  | refused r => exact .refused r

/-! ### The operands of a step -/

/-- Taking an event from the inbox keeps two states alike and shows nothing. -/
theorem SameLive.arrival {s t : State} (h : SameLive s t) (e : Event) (rest : List Event) :
    Follows 0 s t (latch e { s with inbox := rest }) (latch e { t with inbox := rest }) := by
  obtain ⟨st, hs⟩ := latch_eq e { s with inbox := rest }
  obtain ⟨st', ht⟩ := latch_eq e { t with inbox := rest }
  rw [hs, ht]
  exact ⟨⟨h.cfg, h.seq, h.outstanding, rfl, h.clockIn, h.live⟩, Nat.le_refl _, [], rfl, rfl⟩

/-- What stands outside the block may change in any way (R35). -/
theorem SameLive.outside {s t : State} (h : SameLive s t) (d d' : Device) (n n' : Nat) (l l' : List LateWrite) :
    Follows 1 s t { s with device := d, draws := n, lateWrites := l }
      { t with device := d', draws := n', lateWrites := l' } :=
  ⟨⟨h.cfg, h.seq, h.outstanding, h.inbox, h.clockIn, h.live⟩, Nat.le_succ _, [], rfl, rfl⟩

theorem SameLive.observe {s t : State} (h : SameLive s t) (o : Obs) :
    Follows 1 s t (observe o s) (observe o t) :=
  ⟨⟨h.cfg, h.seq, h.outstanding, h.inbox, h.clockIn, h.live⟩, Nat.le_succ _, [o], rfl, rfl⟩

/-- Closing the outstanding transaction shows the one answer on both sides. -/
theorem SameLive.closeTransaction {s t : State} (h : SameLive s t) (o : Obs) :
    Follows 0 s t (closeTransaction o s) (closeTransaction o t) :=
  ⟨⟨h.cfg, h.seq, rfl, h.inbox, h.clockIn, h.live⟩, Nat.le_refl _, [o], rfl, rfl⟩

/-- A delivered frame touches the device and the count of free values only, which no later step reads (R35). -/
theorem SameLive.deliverFrame {s t : State} (h : SameLive s t) (p : Bool) (x : Settings) :
    Follows 0 s t (deliverFrame p x s) (deliverFrame p x t) :=
  ⟨⟨h.cfg, h.seq, h.outstanding, h.inbox, h.clockIn, h.live⟩, Nat.le_refl _, [], rfl, rfl⟩

/-- A listed clock sample is the same on both sides, and one is used up. -/
theorem SameLive.afterClock {s t : State} (h : SameLive s t) (hs : s.clockIn ≠ []) :
    Follows 1 s t (afterClock s) (afterClock t) where
  same := ⟨h.cfg, h.seq, h.outstanding, h.inbox, congrArg List.tail h.clockIn, h.live⟩
  samples := by simp; omega
  added := ⟨[.now (clockNow s)], rfl, by simp [clockNow_congr h.cfg h.clockIn hs]⟩

/-- A status read is issued alike, where the registers it leaves live agree. -/
theorem SameLive.issueRead {k : Nat} {s t : State} (h : SameLive s t) (q : Seq)
    (hl : liveAgree (issueRead q s) (issueRead q t)) : Follows k s t (issueRead q s) (issueRead q t) where
  same := ⟨h.cfg, rfl, by simp [h.cfg], h.inbox, h.clockIn, hl⟩
  samples := Nat.le_add_right _ _
  added := ⟨[.trReq s.cfg.addr (statusLen s.cfg.variant)], rfl, by simp [h.cfg]⟩

/-- A write starts alike, where the latches agree: T0 is the common sample (R132). -/
theorem SameLive.startWrite {s t : State} (h : SameLive s t) (hs : s.clockIn ≠ []) (hreq : s.req = t.req)
    (r : Ref) (g : Bool) (v : Value) (p : Bool) : Follows 1 s t (startWrite r g v p s) (startWrite r g v p t) where
  same := ⟨h.cfg, rfl, by simp [h.cfg], h.inbox, congrArg List.tail h.clockIn,
    congrArg Request.op hreq, congrArg Request.persist hreq, fun _ => clockNow_congr h.cfg h.clockIn hs⟩
  samples := by simp; omega
  added := ⟨[.twReq s.cfg.addr (commandFrame s.cfg r g v p), .now (clockNow s)], by simp,
    by simp [h.cfg, clockNow_congr h.cfg h.clockIn hs]⟩

/-- A reset: every register becomes dead, whatever free values it draws (R34, R190). -/
theorem SameLive.construct {s t : State} (h : SameLive s t) (c : Cfg) :
    Follows 1 s t (construct c s) (construct c t) :=
  ⟨⟨rfl, rfl, rfl, h.inbox, h.clockIn, trivial⟩, Nat.le_succ _, [.reset], rfl, rfl⟩

/-! ### The block's own step -/

theorem SameLive.timeoutTest {s t : State} (h : SameLive s t) (hs : s.clockIn ≠ [])
    (hq : s.seq = .transactionSent) : Follows 1 s t (timeoutTest s) (timeoutTest t) := by
  have hl := h.live
  rw [liveAgree, hq] at hl
  obtain ⟨hop, ht0, hok⟩ := hl
  have hclock := h.afterClock hs
  rw [Machine.timeoutTest, Machine.timeoutTest, ← h.cfg, ← ht0, ← clockNow_congr h.cfg h.clockIn hs]
  split
  · have hc := hclock.same
    exact ⟨⟨hc.cfg, rfl, hc.outstanding, hc.inbox, hc.clockIn, hop, hok⟩, hclock.samples, hclock.added⟩
  · exact hclock.trans (hclock.same.issueRead .pollRead ⟨hop, ht0, hok⟩)

/-- The poll loop has ended: what DONE reads of a write operation agrees. -/
theorem SameLive.leavePolling {s t : State} (h : SameLive s t) (hi : BlockInv s)
    (hq : s.seq = .pollingReady ∨ s.seq = .pollingTimedOut) :
    Follows 1 s t { s with seq := .done } { t with seq := .done } := by
  have hl : s.req.op = t.req.op ∧ s.res.ok = t.res.ok := by
    have hl := h.live
    rcases hq with hq | hq <;> simpa only [liveAgree, hq] using hl
  obtain ⟨hop, _⟩ := hi.latches_of_polling (.inr (.inr hq))
  exact ⟨⟨h.cfg, rfl, h.outstanding, h.inbox, h.clockIn, hl.1, hl.2, fun ho => absurd ho hop⟩,
    Nat.le_succ _, [], rfl, rfl⟩

/-- The result is the same: the record is read only where STATUS_READ made it live (R136). -/
theorem SameLive.respond {s t : State} (h : SameLive s t) (hq : s.seq = .done) :
    Follows 1 s t (respond s) (respond t) := by
  have hl := h.live
  rw [liveAgree, hq] at hl
  obtain ⟨hop, hok, hst⟩ := hl
  refine ⟨⟨h.cfg, rfl, h.outstanding, h.inbox, h.clockIn, trivial⟩, Nat.le_succ _, [_], rfl, ?_⟩
  by_cases ho : s.req.op = .statusRead
  · simp [Machine.respond, hok, ← hop, ho, hst ho]
  · simp [Machine.respond, hok, ← hop, ho]

theorem SameLive.ownStep {s t : State} (h : SameLive s t) (hi : BlockInv s) (hs : s.clockIn ≠ []) :
    Follows 1 s t (ownStep s) (ownStep t) := by
  unfold Machine.ownStep
  rw [← h.seq]
  cases hq : s.seq
  case transactionSent => exact h.timeoutTest hs hq
  case pollingReady => exact h.leavePolling hi (.inl hq)
  case pollingTimedOut => exact h.leavePolling hi (.inr hq)
  case done => exact h.respond hq
  case idle | srRead | cpRead | wrPend | pollRead => exact h.follows 1

/-! ### The instructions -/

theorem SameLive.onPort {s t : State} (h : SameLive s t) (b : Bool) (o : Obs) :
    AnswersAlike 1 s t (onPort b o s) (onPort b o t) := by
  cases b
  · exact .refused _
  · exact .next (h.observe o)

theorem SameLive.whenIdle {s t : State} (h : SameLive s t) {f : State → State}
    (hf : s.seq = .idle → Follows 1 s t (f s) (f t)) : AnswersAlike 1 s t (whenIdle f s) (whenIdle f t) := by
  rw [Machine.whenIdle, Machine.whenIdle, ← h.seq]
  split
  · rename_i hq
    exact .next (hf hq)
  · exact .next (h.follows 1)

/-- In IDLE every latch is dead: a request may fill it with anything (R32). -/
theorem SameLive.latchRequest {s t : State} (h : SameLive s t) (hq : s.seq = .idle) (i : Instr) (r r' : Request) :
    Follows 0 s t { Machine.observe (.hostReq i) s with req := r }
      { Machine.observe (.hostReq i) t with req := r' } where
  same := ⟨h.cfg, h.seq, h.outstanding, h.inbox, h.clockIn, by simp [liveAgree, hq]⟩
  samples := Nat.le_refl _
  added := ⟨[.hostReq i], rfl, rfl⟩

/-- The write completes alike: both sides see one status, and `persist` and T0 are live until then (R133). -/
theorem SameLive.writeCompletes {s t : State} (h : SameLive s t) (hq : s.seq = .wrPend)
    (hop : s.req.op ≠ .statusRead) (htw : s.twStatus = t.twStatus) :
    Follows 1 s t (writeCompletes s) (writeCompletes t) := by
  have hl := h.live
  rw [liveAgree, hq] at hl
  obtain ⟨hopEq, hper, ht0⟩ := hl
  have hdone (b : Bool) : Follows 1 s t (setOk b .done s) (setOk b .done t) :=
    ⟨⟨h.cfg, rfl, h.outstanding, h.inbox, h.clockIn, hopEq, rfl, fun ho => absurd ho hop⟩,
      Nat.le_succ _, [], rfl, rfl⟩
  unfold Machine.writeCompletes
  rw [← htw, ← hper]
  split
  · exact hdone false
  · split
    · rename_i hp
      exact ⟨⟨h.cfg, rfl, h.outstanding, h.inbox, h.clockIn, hopEq, ht0 hp, rfl⟩, Nat.le_succ _, [], rfl, rfl⟩
    · exact hdone true

/-- A command frame is refused, or completes the outstanding write, alike on both sides (R133). -/
theorem SameLive.carryWrite {s t : State} (h : SameLive s t) (hi : BlockInv s) (htw : s.twStatus = t.twStatus)
    (v : Variant) (p : Bool) (f : List Byte) (x : Settings) :
    AnswersAlike 1 s t (carryWrite v p f x s) (carryWrite v p f x t) := by
  rw [Machine.carryWrite, Machine.carryWrite, ← h.cfg, ← h.seq, ← h.outstanding, ← htw]
  split
  · exact .refused _
  · split
    · rename_i hw
      have hd := h.deliverFrame p x
      have hc := hd.trans (hd.same.closeTransaction (.twRsp s.twStatus))
      exact .next (hc.trans (hc.same.writeCompletes hw.1 (hi.op_of_wrPend hw.1) htw))
    · exact .refused _

/-- The compare reads the frame and the latches, which agree (R139). -/
theorem SameLive.compareStored {s t : State} (h : SameLive s t) (hs : s.clockIn ≠ []) (hreq : s.req = t.req)
    (hst : s.res.status = t.res.status) (d : DeviceStatus) :
    Follows 1 s t (compareStored d s) (compareStored d t) := by
  rw [Machine.compareStored, Machine.compareStored, ← hreq]
  split
  · exact ⟨⟨h.cfg, rfl, h.outstanding, h.inbox, h.clockIn, congrArg Request.op hreq, rfl, fun _ => hst⟩,
      Nat.le_succ _, [], rfl, rfl⟩
  · exact h.startWrite hs hreq _ _ _ true

/-- A status frame is taken alike by whichever step awaits it. -/
theorem SameLive.takeStatus {s t : State} (h : SameLive s t) (hs : s.clockIn ≠ []) (f : List Byte)
    (d : DeviceStatus) : AnswersAlike 1 s t (takeStatus f d s) (takeStatus f d t) := by
  have hl := h.live
  have hc := h.closeTransaction (.trRsp f)
  unfold Machine.takeStatus
  rw [← h.seq]
  rw [liveAgree] at hl
  cases hq : s.seq <;> rw [hq] at hl
  case srRead =>
    exact .next ⟨⟨h.cfg, rfl, rfl, h.inbox, h.clockIn, hl, rfl, fun _ => rfl⟩, Nat.le_succ _, hc.added⟩
  case cpRead =>
    have hset : Follows 0 s t (setStatus d (Machine.closeTransaction (.trRsp f) s))
        (setStatus d (Machine.closeTransaction (.trRsp f) t)) :=
      ⟨⟨h.cfg, h.seq, rfl, h.inbox, h.clockIn, by simpa [liveAgree, hq] using hl⟩, Nat.le_refl _, hc.added⟩
    exact .next (hset.trans (hset.same.compareStored hs hl rfl d))
  case pollRead =>
    cases hr : rdy d.vcfg
    · exact .next ⟨⟨h.cfg, rfl, rfl, h.inbox, h.clockIn, hl⟩, Nat.le_succ _, hc.added⟩
    · exact .next ⟨⟨h.cfg, rfl, rfl, h.inbox, h.clockIn, hl.1, hl.2.2⟩, Nat.le_succ _, hc.added⟩
  case idle => exact .next (h.follows 1)
  case wrPend | transactionSent | pollingReady | pollingTimedOut | done => exact .refused _

/-- An instruction answers alike; a command frame needs the status lines of both sides equal, which the arriving
status makes them. -/
theorem SameLive.exec {s t : State} (h : SameLive s t) (hi : BlockInv s) (hs : s.clockIn ≠ []) (i : Instr)
    (htw : i.port = .command → s.twStatus = t.twStatus) : AnswersAlike 1 s t (exec i s) (exec i t) := by
  cases i <;> simp only [Machine.exec]
  case wrvol8 | wrvol10 | wrvol12 | wrall8 | wrall10 | wrall12 =>
    simp only [execWrvol8, execWrvol10, execWrvol12, execWrall8, execWrall10, execWrall12, ← h.cfg]
    exact h.carryWrite hi (htw rfl) _ _ _ _
  case statusN =>
    rw [execStatusN, execStatusN, ← h.cfg]
    split
    · exact h.takeStatus hs _ _
    · exact .refused _
  case statusW =>
    rw [execStatusW, execStatusW, ← h.cfg]
    split
    · exact .refused _
    · exact h.takeStatus hs _ _
  case statusRead =>
    refine h.whenIdle fun hq => ?_
    have hr := h.latchRequest hq .statusRead { s.req with op := .statusRead } { t.req with op := .statusRead }
    exact hr.trans (hr.same.issueRead .srRead rfl)
  case execute p r g v =>
    refine h.whenIdle fun hq => ?_
    have hr := h.latchRequest hq (.execute p r g v) ⟨.execute, r, nz g, v, p⟩ ⟨.execute, r, nz g, v, p⟩
    exact hr.trans (hr.same.startWrite hs rfl _ _ _ _)
  case condPersist r g v =>
    refine h.whenIdle fun hq => ?_
    have hr := h.latchRequest hq (.condPersist r g v) ⟨.condPersist, r, nz g, v, true⟩
      ⟨.condPersist, r, nz g, v, true⟩
    exact hr.trans (hr.same.issueRead .cpRead rfl)
  case encode8 | encode10 | encode12 | decodeN | decodeW =>
    simp only [execEncode8, execEncode10, execEncode12, execDecodeN, execDecodeW, ← h.cfg]
    exact h.onPort _ _

/-! ### The step and the run -/

theorem SameLive.environment {s t : State} (h : SameLive s t) (hi : BlockInv s) (hs : s.clockIn ≠ [])
    (e : Event) : AnswersAlike 1 s t (environment e s) (environment e t) := by
  have hlate (b : Bool) : Follows 1 s t (endLateWrite b s) (endLateWrite b t) := by
    obtain ⟨d, n, l, he⟩ := endLateWrite_eq b s
    obtain ⟨d', n', l', he'⟩ := endLateWrite_eq b t
    rw [he, he']
    exact h.outside d d' n n' l l'
  cases e with
  | tick => exact .next (h.ownStep hi hs)
  | writeDone st =>
    rw [Machine.environment, Machine.environment, ← h.seq]
    split
    · exact .next (hlate _)
    · exact .refused _
  | reset c =>
    rw [Machine.environment, Machine.environment]
    split
    · exact .next (h.construct c)
    · exact .refused _
  | nvWriteEnds | devicePowerCycle => exact .next (h.outside _ _ _ _ _ _)
  | lateWriteEnds => exact .next (hlate false)
  | request | encodePort | decodePort | readDone => exact .next (h.follows 1)

theorem SameLive.rejected {s t : State} (h : SameLive s t) (r : Reject) :
    AnswersAlike 1 s t (rejected r s) (rejected r t) := by
  cases r with
  | noOperation => exact .next (h.follows 1)
  | _ => exact .refused _

/-- One step of two states alike, if a sample is listed, answers alike. -/
theorem SameLive.step {s t : State} (h : SameLive s t) (hi : BlockInv s) (hs : s.clockIn ≠ []) :
    AnswersAlike 1 s t (step s) (step t) := by
  unfold Machine.step
  rw [← h.inbox]
  cases s.inbox with
  | nil => exact .next (h.ownStep hi hs)
  | cons e rest =>
    have ha := h.arrival e rest
    have hi' := blockInv_arrival e rest hi
    have hs' : (latch e { s with inbox := rest }).clockIn ≠ [] := by
      obtain ⟨st, hst⟩ := latch_eq e { s with inbox := rest }
      rwa [hst]
    refine AnswersAlike.of_follows ha ?_
    dsimp only
    rw [← fetch_congr e ha.same.cfg ha.same.seq ha.same.outstanding]
    split
    · rename_i i hf
      refine ha.same.exec hi' hs' i fun hp => ?_
      obtain ⟨st, rfl⟩ := eq_writeDone_of_fetch_command hf hp
      rfl
    · exact ha.same.rejected _
    · exact ha.same.environment hi' hs' e

/-- A run of two states alike, if a sample is listed for each of its steps, answers alike. -/
theorem SameLive.run {n : Nat} {s t : State} (h : SameLive s t) (hi : BlockInv s) (hn : n ≤ s.clockIn.length) :
    AnswersAlike n s t (Host.Core.run Sys2Proof.core n s) (Host.Core.run Sys2Proof.core n t) := by
  induction n generalizing s t with
  | zero => exact .next (h.follows 0)
  | succ n ih =>
    have hstep := h.step hi (List.ne_nil_of_length_pos (by omega))
    simp only [Host.Core.run, Host.Check.core_step]
    generalize hs : Machine.step s = a, Machine.step t = b at hstep
    cases hstep with
    | next h' =>
      have := h'.samples
      exact .of_follows h' (ih h'.same (blockInv_step hi hs) (by omega))
    | refused r => exact .refused r

end Sys2Proof.Safety

/-- Settles O49: two runs of equal length answer alike (`SameLive.run`), by induction on the number of steps. -/
theorem operationsShareNothing : Obligations.OperationsShareNothing := by
  intro n s t hi _ h hn
  have hrun := h.run hi hn
  generalize Host.Core.run Sys2Proof.core n s = a, Host.Core.run Sys2Proof.core n t = b at hrun
  cases hrun with
  | next h' =>
    obtain ⟨new, hs, ht⟩ := h'.added
    refine ⟨fun s' he => ?_, fun r he => nomatch he⟩
    cases he
    exact ⟨_, new, rfl, h'.same, hs, ht⟩
  | refused r => exact ⟨fun s' he => (nomatch he), fun r he => he⟩

namespace Sys2Proof.Machine

/-! ## The status codec -/

/-- Each bit of the packed byte is the bit of the one field that stands there (R28). -/
theorem packConfig_fields (c : Byte) :
    packConfig (rdy c) (por c) (unusedBit c) (vref c) (pd c) (gainFlag c) = c := by
  refine BitVec.eq_of_getLsbD_eq fun i hi => ?_
  interval_cases i <;> simp [packConfig, rdy, por, unusedBit, vref, pd, gainFlag]

/-- Two bytes side by side are a big-endian number (R111). -/
theorem toNat_append_bytes (a b : Byte) : (a ++ b).toNat = a.toNat * 256 + b.toNat := by
  rw [BitVec.toNat_append, ← Nat.shiftLeft_add_eq_or_of_lt b.isLt, Nat.shiftLeft_eq]

/-- On V8 four bytes are a narrow status frame (R86). -/
theorem decode_status_narrow {c : Cfg} (hv : c.variant = .v8) (s0 s1 s2 s3 : Byte) :
    decode c .status [s0, s1, s2, s3] = .ok (.statusN s0 s1 s2 s3) := by
  simp [decode, decodeStatus, hv]

/-- On V10 and V12 six bytes are a wide status frame (R87). -/
theorem decode_status_wide {c : Cfg} (hv : c.variant = .v10 ∨ c.variant = .v12) (s0 s1 s2 s3 s4 s5 : Byte) :
    decode c .status [s0, s1, s2, s3, s4, s5] = .ok (.statusW s0 s1 s2 s3 s4 s5) := by
  rcases hv with hv | hv <;> simp [decode, decodeStatus, hv]

/-- A frame of V8's status length is four bytes (R21). -/
theorem eq_four_bytes_of_statusLen {c : Cfg} {frame : List Byte} (hv : c.variant = .v8)
    (h : frame.length = statusLen c.variant) : ∃ s0 s1 s2 s3, frame = [s0, s1, s2, s3] := by
  rw [hv] at h
  exact List.length_eq_four.mp h

/-- A frame of V10's and V12's status length is six bytes (R21). -/
theorem eq_six_bytes_of_statusLen {c : Cfg} {frame : List Byte} (hv : c.variant = .v10 ∨ c.variant = .v12)
    (h : frame.length = statusLen c.variant) : ∃ s0 s1 s2 s3 s4 s5, frame = [s0, s1, s2, s3, s4, s5] := by
  have h6 : frame.length = 6 := by rcases hv with hv | hv <;> rw [h, hv] <;> rfl
  match frame, h6 with
  | [s0, s1, s2, s3, s4, s5], _ => exact ⟨s0, s1, s2, s3, s4, s5, rfl⟩

end Sys2Proof.Machine

section

open Sys2Proof Sys2Proof.Machine

/-- Settles O15: the length fixes the frame's bytes, so it decodes, and the record holds the bytes themselves. -/
theorem statusDecodeKeepsConfigBytes : Obligations.StatusDecodeKeepsConfigBytes := by
  refine ⟨packConfig_fields, fun c frame hlen => ⟨fun hv => ?_, fun hv => ?_⟩⟩
  · obtain ⟨s0, s1, s2, s3, rfl⟩ := eq_four_bytes_of_statusLen hv hlen
    exact ⟨s0, s1, s2, s3, decode_status_narrow hv .., rfl, rfl⟩
  · obtain ⟨s0, s1, s2, s3, s4, s5, rfl⟩ := eq_six_bytes_of_statusLen hv hlen
    exact ⟨s0, s1, s2, s3, s4, s5, decode_status_wide hv .., rfl, rfl⟩

/-- Settles O13: the narrow record zero-extends a byte, which keeps its number. -/
theorem narrowDecodeZeroExtends : Obligations.NarrowDecodeZeroExtends := by
  intro _ s1 _ s3
  have hext (b : Byte) : (b.setWidth 16).toNat = b.toNat := BitVec.toNat_setWidth_of_le (by decide)
  exact ⟨rfl, hext s1, rfl, hext s3⟩

/-- Settles O14: each value of the wide record is two bytes side by side. -/
theorem wideDecodeIsBigEndian : Obligations.WideDecodeIsBigEndian :=
  fun _ s1 s2 _ s4 s5 => ⟨rfl, toNat_append_bytes s1 s2, rfl, toNat_append_bytes s4 s5⟩

end

namespace Sys2Proof.Machine

/-! ## The command encoder -/

/-- Two bit vectors side by side are one number in base `2 ^ n`, the second the low digit. -/
theorem toNat_append_eq_add {m n : Nat} (a : BitVec m) (b : BitVec n) :
    (a ++ b).toNat = a.toNat * 2 ^ n + b.toNat := by
  rw [BitVec.toNat_append, ← Nat.shiftLeft_add_eq_or_of_lt b.isLt, Nat.shiftLeft_eq]

/-- The encoder's byte 0 is the header byte of the wire format (R81, R120). -/
theorem commandByte0_eq_headerByte (c : Cfg) (ref : Ref) (gain persist : Bool) :
    commandByte0 c ref gain persist = headerByte (selector c persist) ref gain := by
  refine BitVec.eq_of_getLsbD_eq fun i hi => ?_
  have hbit : (headerByte (selector c persist) ref gain).getLsbD i =
      (selector c persist ++ ref ++ BitVec.ofBool gain ++ 0b00#2).getLsbD i := rfl
  simp only [hbit, BitVec.getLsbD_append]
  interval_cases i <;> simp [commandByte0]

theorem toNat_headerByte (cmd : BitVec 3) (ref : Ref) (gain : Bool) :
    (headerByte cmd ref gain).toNat = cmd.toNat * 32 + ref.toNat * 8 + gain.toNat * 4 := by
  simp only [headerByte, toNat_append_eq_add, BitVec.toNat_ofBool, BitVec.toNat_zero]
  omega

theorem toNat_selector (c : Cfg) (persist : Bool) :
    (selector c persist).toNat = if persist then c.cmdWriteAll.toNat else 2 := by
  cases persist <;> rfl

/-- A gain operand is gain on unless it is the number zero (R125). -/
theorem toNat_nz (gainIn : Byte) : (nz gainIn).toNat = if gainIn.toNat = 0 then 0 else 1 := by
  by_cases h : gainIn = 0#8
  · subst h; rfl
  · have hn : gainIn.toNat ≠ 0 := fun h0 => h (BitVec.eq_of_toNat_eq h0)
    simp [nz, h, hn]

/-- Byte 0 in plain numbers (R120). -/
theorem toNat_commandByte0_nz (c : Cfg) (ref : Ref) (gainIn : Byte) (persist : Bool) :
    (commandByte0 c ref (nz gainIn) persist).toNat =
      (if persist then c.cmdWriteAll.toNat else 2) * 32 + ref.toNat * 8 + (if gainIn.toNat = 0 then 0 else 4) := by
  rw [commandByte0_eq_headerByte, toNat_headerByte, toNat_selector, toNat_nz, ite_mul (gainIn.toNat = 0),
    Nat.zero_mul, Nat.one_mul]

/-- Byte 1 of a three-byte frame: the value's top eight of WIDTH bits, with `k` bits below them (R122, R123). -/
theorem toNat_topByte (value : Value) (k : Nat) :
    ((value.setWidth (k + 8)).extractLsb' k 8).toNat = value.toNat % 2 ^ (k + 8) / 2 ^ k := by
  rw [BitVec.extractLsb'_toNat, BitVec.toNat_setWidth, Nat.shiftRight_eq_div_pow]
  refine Nat.mod_eq_of_lt (Nat.div_lt_of_lt_mul ?_)
  rw [← Nat.pow_add]
  exact Nat.mod_lt _ (Nat.two_pow_pos _)

/-- Byte 2: the value's low `k` bits with `p` zero bits below them (R122, R123). -/
theorem toNat_lowBits_padded (value : Value) {k w : Nat} (p : Nat) (hk : k ≤ w) :
    ((value.setWidth w).extractLsb' 0 k ++ 0#p).toNat = value.toNat % 2 ^ k * 2 ^ p := by
  rw [toNat_append_eq_add, BitVec.extractLsb'_toNat, BitVec.toNat_setWidth, Nat.shiftRight_zero,
    Nat.mod_mod_of_dvd _ (Nat.pow_dvd_pow 2 hk), BitVec.toNat_zero, Nat.add_zero]

/-- The encoder reads a value only through its low WIDTH bits. -/
theorem commandFrame_congr {c : Cfg} {value value' : Value}
    (h : value.setWidth (width c.variant) = value'.setWidth (width c.variant)) (ref : Ref) (gain persist : Bool) :
    commandFrame c ref gain value persist = commandFrame c ref gain value' persist := by
  obtain ⟨v, addr, cmd, clockW⟩ := c
  cases v with
  | v8 =>
    have h8 : value.setWidth 8 = value'.setWidth 8 := h
    simp only [commandFrame, frame8, h8]
  | v10 =>
    have h10 : value.setWidth 10 = value'.setWidth 10 := h
    simp only [commandFrame, frame10, h10]
  | v12 =>
    have h12 : value.setWidth 12 = value'.setWidth 12 := h
    simp only [commandFrame, frame12, h12]

end Sys2Proof.Machine

section

open Sys2Proof Sys2Proof.Machine

/-- Settles O7: byte 0 is the same number for every variant, and the value bytes are quotient and remainder. -/
theorem encoderFramesAreBitExact : Obligations.EncoderFramesAreBitExact := by
  intro c ref gainIn value persist
  have hb0 := toNat_commandByte0_nz c ref gainIn persist
  cases hv : c.variant with
  | v8 =>
    simp only [commandFrame, hv, frame8, List.map_cons, List.map_nil, hb0, BitVec.toNat_setWidth]
  | v10 =>
    have hb1 := toNat_topByte value 2
    have hb2 := toNat_lowBits_padded value (k := 2) (w := 10) 6 (by decide)
    simp only [commandFrame, hv, frame10, List.map_cons, List.map_nil, hb0, hb1, hb2, Nat.reduceAdd, Nat.reducePow]
  | v12 =>
    have hb1 := toNat_topByte value 4
    have hb2 := toNat_lowBits_padded value (k := 4) (w := 12) 4 (by decide)
    simp only [commandFrame, hv, frame12, List.map_cons, List.map_nil, hb0, hb1, hb2, Nat.reduceAdd, Nat.reducePow]

/-- Settles O8: numbers equal modulo 2^WIDTH have the same low WIDTH bits, and the frame holds no others. -/
theorem encoderTruncatesSilently : Obligations.EncoderTruncatesSilently := by
  intro c ref gain value value' persist h
  refine commandFrame_congr (BitVec.eq_of_toNat_eq ?_) ref gain persist
  rwa [BitVec.toNat_setWidth, BitVec.toNat_setWidth]

end

namespace Sys2Proof.Machine

/-! ## Acceptance -/

/-- In IDLE a request is taken (R130). -/
theorem whenIdle_of_idle {f : State → State} {s : State} (hq : s.seq = .idle) : whenIdle f s = .next (f s) :=
  if_pos hq

/-- A gain operand is gain on exactly if its number is not zero (R24, R125). -/
theorem nz_eq_decide (gainIn : Byte) : nz gainIn = decide (gainIn.toNat ≠ 0) := by
  rw [Bool.eq_iff_iff, decide_eq_true_iff, nz, bne_iff_ne, ne_eq, ← BitVec.toNat_inj, BitVec.toNat_zero]

/-- A status frame has four bytes on V8 and six on the others (R21). -/
theorem statusLen_eq_ite (v : Variant) : statusLen v = if v = .v8 then 4 else 6 := by
  cases v <;> rfl

end Sys2Proof.Machine

section

open Sys2Proof Sys2Proof.Machine

/-- Settles O20: in IDLE the request is taken, and one read is issued after the operands are latched. -/
theorem condPersistReadsFirst : Obligations.CondPersistReadsFirst := by
  intro s ref g v hq
  dsimp only
  rw [← nz_eq_decide, ← statusLen_eq_ite, exec, execCondPersist]
  exact whenIdle_of_idle hq

end

namespace Sys2Proof.Machine

/-! ## The fields of a header byte and of a word, read back -/

theorem extract_selector_headerByte (cmd : BitVec 3) (ref : Ref) (gain : Bool) :
    (headerByte cmd ref gain).extractLsb' 5 3 = cmd := by
  have hgain := gain.toNat_le
  refine BitVec.eq_of_toNat_eq ?_
  rw [BitVec.extractLsb'_toNat, toNat_headerByte, Nat.shiftRight_eq_div_pow]
  omega

theorem extract_reserved_headerByte (cmd : BitVec 3) (ref : Ref) (gain : Bool) :
    (headerByte cmd ref gain).extractLsb' 0 2 = 0#2 := by
  refine BitVec.eq_of_toNat_eq ?_
  rw [BitVec.extractLsb'_toNat, toNat_headerByte, Nat.shiftRight_eq_div_pow, BitVec.toNat_zero]
  omega

theorem frameRef_headerByte (cmd : BitVec 3) (ref : Ref) (gain : Bool) :
    frameRef (headerByte cmd ref gain) = ref := by
  have hgain := gain.toNat_le
  refine BitVec.eq_of_toNat_eq ?_
  rw [frameRef, BitVec.extractLsb'_toNat, toNat_headerByte, Nat.shiftRight_eq_div_pow]
  omega

/-- A bit of a bit vector, as arithmetic on its number. -/
theorem getLsbD_eq_decide {w : Nat} (x : BitVec w) (i : Nat) :
    x.getLsbD i = decide (x.toNat / 2 ^ i % 2 = 1) := by
  rw [BitVec.getLsbD, Nat.testBit_eq_decide_div_mod_eq]

theorem frameGain_headerByte (cmd : BitVec 3) (ref : Ref) (gain : Bool) :
    frameGain (headerByte cmd ref gain) = gain := by
  rw [frameGain, getLsbD_eq_decide, toNat_headerByte, Bool.eq_iff_iff, decide_eq_true_iff]
  cases gain <;> simp <;> omega

/-- The two selectors of an admitted construction are told apart (R85). -/
theorem selectorPersists_headerByte {c : Cfg} (hc : c.cmdWriteAll ≠ cmdWriteVolatile) (persist : Bool) (ref : Ref)
    (gain : Bool) : selectorPersists c (headerByte (selector c persist) ref gain) = .ok persist := by
  rw [selectorPersists, extract_reserved_headerByte, extract_selector_headerByte]
  cases persist <;> simp [selector, hc]

theorem cfg_wf_iff {c : Cfg} : c.wf = true ↔ c.cmdWriteAll ≠ cmdWriteVolatile ∧ 7 ≤ c.clockW := by
  simp [Cfg.wf]

/-! ## Command frames -/

/-- The command frame of a variant, as an instruction (R91). -/
def frameInstr (v : Variant) (persist : Bool) (ref : Ref) (gain : Bool) (value : Value) : Instr :=
  match v, persist with
  | .v8, false => .wrvol8 ref gain value
  | .v8, true => .wrall8 ref gain value
  | .v10, false => .wrvol10 ref gain value
  | .v10, true => .wrall10 ref gain value
  | .v12, false => .wrvol12 ref gain value
  | .v12, true => .wrall12 ref gain value

/-- The instructions of the command port are the command frames of the three variants. -/
theorem exists_frameInstr {i : Instr} {v : Variant} (hp : i.port = .command) (hf : i.fits v = true) :
    ∃ persist ref gain value, i = frameInstr v persist ref gain value := by
  cases i <;> cases hp <;> simp only [Instr.fits, beq_iff_eq] at hf <;> subst hf
  case wrvol8 | wrvol10 | wrvol12 => exact ⟨false, _, _, _, rfl⟩
  case wrall8 | wrall10 | wrall12 => exact ⟨true, _, _, _, rfl⟩

theorem frameInstr_wf (v : Variant) (persist : Bool) (ref : Ref) (gain : Bool) (value : Value) :
    (frameInstr v persist ref gain value).wf = decide (value.toNat ≤ vmax v) := by
  cases v <;> cases persist <;> rfl

theorem frameInstr_fits (v : Variant) (persist : Bool) (ref : Ref) (gain : Bool) (value : Value) :
    (frameInstr v persist ref gain value).fits v = true := by
  cases v <;> cases persist <;> rfl

theorem frameInstr_port (v : Variant) (persist : Bool) (ref : Ref) (gain : Bool) (value : Value) :
    (frameInstr v persist ref gain value).port = .command := by
  cases v <;> cases persist <;> rfl

/-- The value bytes of a command frame (R82 to R84). -/
def valueBytes (v : Variant) (value : Value) : List Byte :=
  match v with
  | .v8 => valueBytes8 value
  | .v10 => valueBytes10 value
  | .v12 => valueBytes12 value

/-- A command frame is its header byte and its value bytes (R81). -/
theorem encode_frameInstr (c : Cfg) (v : Variant) (persist : Bool) (ref : Ref) (gain : Bool) (value : Value) :
    encode c (frameInstr v persist ref gain value) =
      headerByte (selector c persist) ref gain :: valueBytes v value := by
  cases v <;> cases persist <;> rfl

/-! ### The value bytes, read back and written again -/

/-- One value byte is the value of at most 8 bits (R82). -/
theorem valueBytes8_iff {b1 : Byte} {value : Value} :
    b1.setWidth 16 = value ↔ [b1] = valueBytes8 value ∧ value.toNat ≤ vmax .v8 := by
  simp only [valueBytes8, List.cons.injEq, and_true, ← BitVec.toNat_inj, BitVec.toNat_setWidth,
    BitVec.extractLsb'_toNat, Nat.shiftRight_zero, vmax]
  have := b1.isLt
  omega

/-- Two value bytes whose pad bits are zero are the value of at most 10 bits (R83). -/
theorem valueBytes10_iff {b1 b2 : Byte} {value : Value} :
    (b2.extractLsb' 0 6 = 0#6 ∧ BitVec.setWidth 16 (b1 ++ b2.extractLsb' 6 2) = value) ↔
      [b1, b2] = valueBytes10 value ∧ value.toNat ≤ vmax .v10 := by
  simp only [valueBytes10, List.cons.injEq, and_true, ← BitVec.toNat_inj, BitVec.toNat_setWidth,
    toNat_append_eq_add, BitVec.extractLsb'_toNat, Nat.shiftRight_eq_div_pow, BitVec.toNat_zero, vmax]
  have := b1.isLt
  have := b2.isLt
  omega

/-- Two value bytes whose pad bits are zero are the value of at most 12 bits (R84). -/
theorem valueBytes12_iff {b1 b2 : Byte} {value : Value} :
    (b2.extractLsb' 0 4 = 0#4 ∧ BitVec.setWidth 16 (b1 ++ b2.extractLsb' 4 4) = value) ↔
      [b1, b2] = valueBytes12 value ∧ value.toNat ≤ vmax .v12 := by
  simp only [valueBytes12, List.cons.injEq, and_true, ← BitVec.toNat_inj, BitVec.toNat_setWidth,
    toNat_append_eq_add, BitVec.extractLsb'_toNat, Nat.shiftRight_eq_div_pow, BitVec.toNat_zero, vmax]
  have := b1.isLt
  have := b2.isLt
  omega

/-! ### Decoding a command frame -/

/-- The header byte whose selector is read is made of its own fields (R81). -/
theorem eq_headerByte_of_selectorPersists {c : Cfg} {b0 : Byte} {persist : Bool}
    (h : selectorPersists c b0 = .ok persist) :
    b0 = headerByte (selector c persist) (frameRef b0) (frameGain b0) := by
  have hsel : b0.extractLsb' 0 2 = 0#2 ∧ b0.extractLsb' 5 3 = selector c persist := by
    unfold selectorPersists at h
    split at h
    · cases h
    · split at h
      · cases h; simp_all [selector]
      · split at h
        · cases h; simp_all [selector]
        · cases h
  obtain ⟨hrsv, hcmd⟩ := hsel
  have hbits := b0.isLt
  refine BitVec.eq_of_toNat_eq ?_
  rw [toNat_headerByte, ← hcmd, frameRef, frameGain, getLsbD_eq_decide, BitVec.extractLsb'_toNat,
    BitVec.extractLsb'_toNat, Nat.shiftRight_eq_div_pow, Nat.shiftRight_eq_div_pow]
  have hzero := congrArg BitVec.toNat hrsv
  rw [BitVec.extractLsb'_toNat, BitVec.toNat_zero, Nat.shiftRight_zero] at hzero
  by_cases hgain : b0.toNat / 2 ^ 2 % 2 = 1
  · rw [decide_eq_true hgain, Bool.toNat_true]; omega
  · rw [decide_eq_false hgain, Bool.toNat_false]; omega

/-- A frame that decodes is a header byte with a known selector and the value bytes of an in-range value. -/
theorem decodeCommand_ok {c : Cfg} {bs : List Byte} {i : Instr} (h : decodeCommand c bs = .ok i) :
    ∃ b0 persist value, bs = b0 :: valueBytes c.variant value ∧ selectorPersists c b0 = .ok persist ∧
      value.toNat ≤ vmax c.variant ∧ i = frameInstr c.variant persist (frameRef b0) (frameGain b0) value := by
  unfold decodeCommand at h
  split at h
  case h_1 b0 b1 hv =>
    rw [hv]
    unfold decodeCmd8 at h
    split at h <;> cases h <;> rename_i hsel
    all_goals
      obtain ⟨hb, hmax⟩ := valueBytes8_iff.mp (rfl : b1.setWidth 16 = b1.setWidth 16)
      exact ⟨b0, _, _, congrArg _ hb, hsel, hmax, rfl⟩
  case h_2 b0 b1 b2 hv =>
    rw [hv]
    unfold decodeCmd10 at h
    split at h
    · cases h
    · rename_i p hsel
      split at h
      · cases h
      · rename_i hpad
        obtain ⟨hb, hmax⟩ := valueBytes10_iff.mp ⟨not_not.mp hpad, rfl⟩
        refine ⟨b0, p, _, congrArg _ hb, hsel, hmax, ?_⟩
        cases p <;> cases h <;> rfl
  case h_3 b0 b1 b2 hv =>
    rw [hv]
    unfold decodeCmd12 at h
    split at h
    · cases h
    · rename_i p hsel
      split at h
      · cases h
      · rename_i hpad
        obtain ⟨hb, hmax⟩ := valueBytes12_iff.mp ⟨not_not.mp hpad, rfl⟩
        refine ⟨b0, p, _, congrArg _ hb, hsel, hmax, ?_⟩
        cases p <;> cases h <;> rfl
  case h_4 => cases h

/-- Any header byte with a known selector and the value bytes of an in-range value decode. -/
theorem decodeCommand_of_selector {c : Cfg} {b0 : Byte} {persist : Bool} {value : Value}
    (hsel : selectorPersists c b0 = .ok persist) (hmax : value.toNat ≤ vmax c.variant) :
    decodeCommand c (b0 :: valueBytes c.variant value) =
      .ok (frameInstr c.variant persist (frameRef b0) (frameGain b0) value) := by
  unfold decodeCommand
  cases hv : c.variant <;> rw [hv] at hmax
  case v8 =>
    have hvalue := valueBytes8_iff.mpr ⟨rfl, hmax⟩
    cases persist <;> simp [valueBytes, valueBytes8, decodeCmd8, hsel, hvalue, frameInstr]
  case v10 =>
    obtain ⟨hpad, hvalue⟩ := valueBytes10_iff.mpr ⟨rfl, hmax⟩
    cases persist <;> simp only [valueBytes, valueBytes10, decodeCmd10, hsel, hpad, hvalue, frameInstr] <;> simp
  case v12 =>
    obtain ⟨hpad, hvalue⟩ := valueBytes12_iff.mpr ⟨rfl, hmax⟩
    cases persist <;> simp only [valueBytes, valueBytes12, decodeCmd12, hsel, hpad, hvalue, frameInstr] <;> simp

/-- A command frame of an admitted construction decodes to the instruction it was encoded from. -/
theorem decode_encode_frameInstr {c : Cfg} (hc : c.wf = true) {value : Value} (hmax : value.toNat ≤ vmax c.variant)
    (persist : Bool) (ref : Ref) (gain : Bool) :
    decode c .command (encode c (frameInstr c.variant persist ref gain value)) =
      .ok (frameInstr c.variant persist ref gain value) := by
  have hsel := selectorPersists_headerByte (cfg_wf_iff.mp hc).1 persist ref gain
  rw [decode, encode_frameInstr, decodeCommand_of_selector hsel hmax, frameRef_headerByte, frameGain_headerByte]

/-! ## Words -/

theorem append_bytes32 (w : BitVec 32) :
    w.extractLsb' 24 8 ++ w.extractLsb' 16 8 ++ w.extractLsb' 8 8 ++ w.extractLsb' 0 8 = w := by
  refine BitVec.eq_of_toNat_eq ?_
  simp only [toNat_append_eq_add, BitVec.extractLsb'_toNat, Nat.shiftRight_eq_div_pow]
  omega

/-- The request port reads its four bytes as one word (R89). -/
theorem decode_request_bytes32 (c : Cfg) (w : BitVec 32) : decode c .request (bytes32 w) = decodeRequest w :=
  congrArg decodeRequest (append_bytes32 w)

theorem decode_encodePort_bytes32 (c : Cfg) (w : BitVec 32) :
    decode c .encodePort (bytes32 w) = decodeEncodePort c w :=
  congrArg (decodeEncodePort c) (append_bytes32 w)

/-! ### The fields of a word of operands, read back (R89) -/

section

variable (op : BitVec 2) (persist : Bool) (ref : Ref) (gainIn : Byte) (value : Value)

theorem toNat_operandWord : (op ++ operandBits persist ref gainIn value).toNat =
    op.toNat * 2 ^ 30 + persist.toNat * 2 ^ 29 + ref.toNat * 2 ^ 27 + gainIn.toNat * 2 ^ 16 + value.toNat := by
  simp only [operandBits, toNat_append_eq_add, BitVec.toNat_ofBool, BitVec.toNat_zero]
  omega

theorem extract_op_operandWord : (op ++ operandBits persist ref gainIn value).extractLsb' 30 2 = op := by
  have hpersist := persist.toNat_le
  refine BitVec.eq_of_toNat_eq ?_
  rw [BitVec.extractLsb'_toNat, toNat_operandWord, Nat.shiftRight_eq_div_pow]
  omega

theorem getLsbD_persist_operandWord : (op ++ operandBits persist ref gainIn value).getLsbD 29 = persist := by
  rw [getLsbD_eq_decide, toNat_operandWord, Bool.eq_iff_iff, decide_eq_true_iff]
  cases persist <;> simp <;> omega

theorem extract_ref_operandWord : (op ++ operandBits persist ref gainIn value).extractLsb' 27 2 = ref := by
  have hpersist := persist.toNat_le
  refine BitVec.eq_of_toNat_eq ?_
  rw [BitVec.extractLsb'_toNat, toNat_operandWord, Nat.shiftRight_eq_div_pow]
  omega

theorem extract_gainIn_operandWord : (op ++ operandBits persist ref gainIn value).extractLsb' 16 8 = gainIn := by
  refine BitVec.eq_of_toNat_eq ?_
  rw [BitVec.extractLsb'_toNat, toNat_operandWord, Nat.shiftRight_eq_div_pow]
  omega

theorem extract_value_operandWord : (op ++ operandBits persist ref gainIn value).extractLsb' 0 16 = value := by
  refine BitVec.eq_of_toNat_eq ?_
  rw [BitVec.extractLsb'_toNat, toNat_operandWord, Nat.shiftRight_eq_div_pow]
  omega

end

/-- What the encoder's port reads back, per variant (R90). -/
theorem decodeEncodePort_operandWord (c : Cfg) (persist : Bool) (ref : Ref) (gainIn : Byte) (value : Value) :
    decodeEncodePort c (0b00#2 ++ operandBits persist ref gainIn value) =
      match c.variant with
      | .v8 => .ok (.encode8 persist ref gainIn value)
      | .v10 => .ok (.encode10 persist ref gainIn value)
      | .v12 => .ok (.encode12 persist ref gainIn value) := by
  simp only [decodeEncodePort, extract_op_operandWord, getLsbD_persist_operandWord, extract_ref_operandWord,
    extract_gainIn_operandWord, extract_value_operandWord]
  rfl

end Sys2Proof.Machine

section

open Sys2Proof Sys2Proof.Machine

/-- Settles O3, row by row: a frame's header and value bytes, and a word's fields, are read back where they were
written. -/
theorem decodeInvertsEncode : Obligations.DecodeInvertsEncode := by
  intro c i hc hwf hfits
  cases hp : i.port
  case command =>
    obtain ⟨persist, ref, gain, value, rfl⟩ := exists_frameInstr hp hfits
    exact decode_encode_frameInstr hc (by simpa [frameInstr_wf] using hwf) persist ref gain
  case status =>
    cases i <;> cases hp
    case statusN => exact decode_status_narrow (by simpa [Instr.fits] using hfits) ..
    case statusW =>
      refine decode_status_wide ?_ ..
      cases hv : c.variant <;> simp_all [Instr.fits]
  case request =>
    cases i <;> cases hp
    case statusRead => exact decode_request_bytes32 c _
    case execute p r g v =>
      refine (decode_request_bytes32 c _).trans ?_
      rw [decodeRequest, extract_op_operandWord, getLsbD_persist_operandWord, extract_ref_operandWord,
        extract_gainIn_operandWord, extract_value_operandWord]
      rfl
    case condPersist r g v =>
      refine (decode_request_bytes32 c _).trans ?_
      rw [decodeRequest, extract_op_operandWord, extract_ref_operandWord, extract_gainIn_operandWord,
        extract_value_operandWord]
      rfl
  case encodePort =>
    cases i <;> cases hp
    all_goals
      simp only [Instr.fits, beq_iff_eq] at hfits
      refine (decode_encodePort_bytes32 c _).trans ?_
      rw [decodeEncodePort_operandWord, hfits]
  case decodePort =>
    cases i <;> cases hp <;> simp [Instr.fits] at hfits
    case decodeN => simp [decode, encode, decodeDecodePort, hfits]
    case decodeW => cases hv : c.variant <;> simp_all [decode, encode, decodeDecodePort]

/-- Settles O4: a command frame that decodes is a header byte and value bytes, which the encoder writes alike; a
status frame is its own bytes. -/
theorem wireFramesHaveOneMeaning : Obligations.WireFramesHaveOneMeaning := by
  intro c p bs i hp h
  rcases hp with rfl | rfl
  · obtain ⟨b0, persist, value, rfl, hsel, hmax, rfl⟩ := decodeCommand_ok h
    refine ⟨?_, ?_, frameInstr_fits .., frameInstr_port ..⟩
    · rw [encode_frameInstr, ← eq_headerByte_of_selectorPersists hsel]
    · rw [frameInstr_wf, decide_eq_true hmax]
  · simp only [decode, decodeStatus] at h
    split at h
    case h_4 => cases h
    all_goals
      rename_i hv
      cases h
      exact ⟨rfl, rfl, by rw [hv]; rfl, rfl⟩

end

namespace Sys2Proof.Safety

open Sys2Proof Sys2Proof.Machine

/-! ## What a step can be -/

/-- The steps of the machine but for a reset, on the state in which the next event has been taken from the inbox:
the rows of R140, the pure ports, and the events in which the block has no step. -/
inductive Move (s : State) : State → Prop
  /-- nothing of the block changes; the device and the transport may -/
  | outside (d : Device) (n : Nat) (l : List LateWrite) :
      Move s { s with device := d, draws := n, lateWrites := l }
  /-- a pure port shows its output (R115, R127) -/
  | port {o : Obs} (ho : (∃ f n, o = .encPort f n) ∨ ∃ d, o = .decPort d) : Move s (observe o s)
  /-- STATUS_READ is accepted (R131) -/
  | acceptsRead (hq : s.seq = .idle) :
      Move s (issueRead .srRead
        { observe (.hostReq .statusRead) s with req := { s.req with op := .statusRead } })
  /-- EXECUTE is accepted (R132) -/
  | acceptsExecute (hq : s.seq = .idle) (p : Bool) (r : Ref) (g : Byte) (v : Value) :
      Move s (startWrite r (nz g) v p
        { observe (.hostReq (.execute p r g v)) s with req := ⟨.execute, r, nz g, v, p⟩ })
  /-- COND_PERSIST is accepted (R138) -/
  | acceptsCondPersist (hq : s.seq = .idle) (r : Ref) (g : Byte) (v : Value) :
      Move s (issueRead .cpRead
        { observe (.hostReq (.condPersist r g v)) s with req := ⟨.condPersist, r, nz g, v, true⟩ })
  /-- the write completes, and the operation ends or goes on to the poll loop (R133) -/
  | writeAnswered (hq : s.seq = .wrPend) (p : Bool) (x : Settings) {q : Seq}
      (hnext : q = .done ∨ (q = .transactionSent ∧ s.twStatus = 0#8)) :
      Move s (setOk (s.twStatus == 0#8) q (closeTransaction (.twRsp s.twStatus) (deliverFrame p x s)))
  /-- the read of STATUS_READ, or of a COND_PERSIST that matches, ends its operation (R131, R139) -/
  | readEnds (hq : s.seq = .srRead ∨ s.seq = .cpRead) (f : List Byte) (d : DeviceStatus) :
      Move s (setOk true .done (setStatus d (closeTransaction (.trRsp f) s)))
  /-- COND_PERSIST does not match and starts its write (R139) -/
  | mismatches (hq : s.seq = .cpRead) (f : List Byte) (d : DeviceStatus) :
      Move s (startWrite s.req.ref s.req.gain s.req.value true (setStatus d (closeTransaction (.trRsp f) s)))
  /-- a poll is answered (R135) -/
  | polled (hq : s.seq = .pollRead) (f : List Byte) (d : DeviceStatus) {q : Seq}
      (hnext : q = .pollingReady ∨ q = .transactionSent) :
      Move s { setStatus d (closeTransaction (.trRsp f) s) with seq := q }
  /-- the timeout test ends the poll loop (R134) -/
  | timesOut (hq : s.seq = .transactionSent) : Move s { afterClock s with seq := .pollingTimedOut }
  /-- the timeout test lets the next poll go out (R134) -/
  | polls (hq : s.seq = .transactionSent) : Move s (issueRead .pollRead (afterClock s))
  /-- the poll loop has ended (R136) -/
  | pollEnds (hq : s.seq = .pollingReady ∨ s.seq = .pollingTimedOut) : Move s { s with seq := .done }
  /-- the result is given (R136) -/
  | responds (hq : s.seq = .done) : Move s (respond s)

theorem Move.stay (s : State) : Move s s := .outside s.device s.draws s.lateWrites

theorem move_ownStep (s : State) : Move s (ownStep s) := by
  rcases ownStep_cases s with ⟨hq, h⟩ | ⟨hq, h⟩ | ⟨hq, h⟩ | ⟨_, h⟩ <;> rw [h]
  · rcases timeoutTest_cases s with ⟨_, h⟩ | ⟨_, h⟩ <;> rw [h]
    · exact .timesOut hq
    · exact .polls hq
  · exact .pollEnds hq
  · exact .responds hq
  · exact .stay _

theorem move_takeStatus {f : List Byte} {d : DeviceStatus} {s t : State} (h : takeStatus f d s = .next t) :
    Move s t := by
  rcases takeStatus_next h with ⟨hq, rfl⟩ | ⟨hq, rfl⟩ | ⟨hq, rfl⟩ | ⟨_, rfl⟩
  · exact .readEnds (.inl hq) f d
  · rcases compareStored_cases d (setStatus d (closeTransaction (.trRsp f) s)) with ⟨_, h⟩ | ⟨_, h⟩ <;> rw [h]
    · exact .readEnds (.inr hq) f d
    · exact .mismatches hq f d
  · refine .polled hq f d ?_
    split
    · exact .inl rfl
    · exact .inr rfl
  · exact .stay _

theorem move_carryWrite {v : Variant} {p : Bool} {f : List Byte} {x : Settings} {s t : State}
    (h : carryWrite v p f x s = .next t) : Move s t := by
  obtain ⟨_, hq, _, rfl⟩ := carryWrite_next h
  rcases writeCompletes_cases (closeTransaction (.twRsp s.twStatus) (deliverFrame p x s)) with
    ⟨hst, h⟩ | ⟨hst, _, h⟩ | ⟨hst, _, h⟩ <;> rw [h]
  · rw [← beq_eq_false_iff_ne.mpr hst]
    exact .writeAnswered hq p x (.inl rfl)
  · rw [← beq_iff_eq.mpr hst]
    exact .writeAnswered hq p x (.inr ⟨rfl, hst⟩)
  · rw [← beq_iff_eq.mpr hst]
    exact .writeAnswered hq p x (.inl rfl)

theorem move_exec {i : Instr} {s t : State} (h : exec i s = .next t) : Move s t := by
  cases i <;> simp only [exec] at h
  case statusRead =>
    rcases whenIdle_next h with ⟨hq, rfl⟩ | ⟨_, rfl⟩
    · exact .acceptsRead hq
    · exact .stay _
  case execute p r g v =>
    rcases whenIdle_next h with ⟨hq, rfl⟩ | ⟨_, rfl⟩
    · exact .acceptsExecute hq p r g v
    · exact .stay _
  case condPersist r g v =>
    rcases whenIdle_next h with ⟨hq, rfl⟩ | ⟨_, rfl⟩
    · exact .acceptsCondPersist hq r g v
    · exact .stay _
  case statusN =>
    unfold execStatusN at h
    split at h
    · exact move_takeStatus h
    · cases h
  case statusW =>
    unfold execStatusW at h
    split at h
    · cases h
    · exact move_takeStatus h
  case encode8 | encode10 | encode12 =>
    obtain ⟨_, rfl⟩ := onPort_next h
    exact .port (.inl ⟨_, _, rfl⟩)
  case decodeN | decodeW =>
    obtain ⟨_, rfl⟩ := onPort_next h
    exact .port (.inr ⟨_, rfl⟩)
  case wrvol8 | wrvol10 | wrvol12 | wrall8 | wrall10 | wrall12 => exact move_carryWrite h

/-- Every step is a reset or a move, on the state in which the event has been taken and its status is on the
lines. -/
theorem step_move {s t : State} (h : step s = .next t) :
    ∃ inbox st, Move { s with inbox := inbox, twStatus := st } t ∨
      (resetNext s = true ∧ ∃ c, c.wf = true ∧ t = construct c { s with inbox := inbox, twStatus := st }) := by
  rcases step_next h with ⟨_, rfl⟩ | ⟨e, rest, hin, hstep⟩
  · exact ⟨s.inbox, s.twStatus, .inl (move_ownStep s)⟩
  · obtain ⟨st, hst⟩ := latch_eq e { s with inbox := rest }
    refine ⟨rest, st, ?_⟩
    simp only [hst] at hstep
    rcases hstep with ⟨i, _, hx⟩ | ⟨_, rfl⟩ | ⟨_, henv⟩
    · exact .inl (move_exec hx)
    · exact .inl (.stay _)
    · rcases environment_next henv with rfl | ⟨c, rfl, hc, rfl⟩ | ⟨d, n, l, rfl⟩
      · exact .inl (move_ownStep _)
      · exact .inr ⟨by simp [resetNext, hin], c, hc, rfl⟩
      · exact .inl (.outside d n l)

/-- A step that is no reset is a move. -/
theorem move_of_step {s t : State} (h : step s = .next t) (hr : resetNext s = false) :
    ∃ inbox st, Move { s with inbox := inbox, twStatus := st } t := by
  obtain ⟨inbox, st, hm | ⟨hreset, _⟩⟩ := step_move h
  · exact ⟨inbox, st, hm⟩
  · rw [hr] at hreset
    cases hreset

/-! ## What every move keeps -/

theorem Move.cfg_eq {s t : State} (hm : Move s t) : t.cfg = s.cfg := by
  cases hm <;> rfl

/-- SEQ goes along the transition table (R140). -/
theorem Move.seq_edge {s t : State} (hm : Move s t) : t.seq = s.seq ∨ seqEdge s.seq t.seq = true := by
  cases hm with
  | outside | port => exact .inl rfl
  | acceptsRead hq | acceptsExecute hq | acceptsCondPersist hq | mismatches hq | timesOut hq | polls hq
  | responds hq => exact .inr (by rw [hq]; rfl)
  | writeAnswered hq _ _ hnext => rcases hnext with rfl | ⟨rfl, _⟩ <;> exact .inr (by rw [hq]; rfl)
  | readEnds hq | pollEnds hq => rcases hq with hq | hq <;> exact .inr (by rw [hq]; rfl)
  | polled hq _ _ hnext => rcases hnext with rfl | rfl <;> exact .inr (by rw [hq]; rfl)

/-- After the write RES.OK, the latches and T0 are final (R133). -/
theorem Move.result_final {s t : State} (hm : Move s t)
    (hseq : s.seq = .transactionSent ∨ s.seq = .pollRead ∨ s.seq = .pollingReady ∨ s.seq = .pollingTimedOut ∨
      s.seq = .done) : t.res.ok = s.res.ok ∧ t.req = s.req ∧ t.t0 = s.t0 := by
  cases hm with
  | outside | port | polled | timesOut | polls | pollEnds | responds => exact ⟨rfl, rfl, rfl⟩
  | acceptsRead hq | acceptsExecute hq | acceptsCondPersist hq | mismatches hq | writeAnswered hq =>
    simp [hq] at hseq
  | readEnds hq => rcases hq with hq | hq <;> simp [hq] at hseq

/-- A command frame has the variant's length (R21). -/
theorem length_commandFrame (c : Cfg) (ref : Ref) (gain : Bool) (value : Value) (persist : Bool) :
    (commandFrame c ref gain value persist).length = cmdLen c.variant := by
  unfold commandFrame
  cases c.variant <;> rfl

/-- A move adds to the observations, and what it adds is admitted; a transaction is issued from IDLE, from the
poll loop's test, or after the answer of the read before it (R50, R60). -/
theorem Move.added {s t : State} (hm : Move s t) :
    ∃ new, t.trace = new ++ s.trace ∧ (∀ o ∈ new, obsAdmitted s.cfg o) ∧
      ((∃ o ∈ new, isWrite o = true ∨ isRead o = true) →
        s.seq = .idle ∨ s.seq = .transactionSent ∨ ∃ frame, new.getLast? = some (.trRsp frame)) := by
  cases hm with
  | outside | pollEnds => exact ⟨[], rfl, by simp, by simp⟩
  | port ho =>
    rcases ho with ⟨f, n, rfl⟩ | ⟨d, rfl⟩ <;>
      exact ⟨[_], rfl, by simp [obsAdmitted], by simp [isWrite, isRead]⟩
  | responds => exact ⟨[_], rfl, by simp [obsAdmitted], by simp [isWrite, isRead]⟩
  | writeAnswered | readEnds | polled => exact ⟨[_], rfl, by simp [obsAdmitted], by simp [isWrite, isRead]⟩
  | timesOut hq => exact ⟨[_], rfl, by simp [obsAdmitted, clockNow_lt], fun _ => .inr (.inl hq)⟩
  | polls hq => exact ⟨[_, _], rfl, by simp [obsAdmitted, clockNow_lt], fun _ => .inr (.inl hq)⟩
  | acceptsRead hq | acceptsCondPersist hq =>
    exact ⟨[_, _], rfl, by simp [obsAdmitted], fun _ => .inl hq⟩
  | acceptsExecute hq p r g v =>
    have hnow := clockNow_lt { observe (.hostReq (.execute p r g v)) s with req := ⟨.execute, r, nz g, v, p⟩ }
    exact ⟨[_, _, _], rfl, by simpa [obsAdmitted, length_commandFrame] using hnow, fun _ => .inl hq⟩
  | mismatches hq f d =>
    have hnow := clockNow_lt (setStatus d (closeTransaction (.trRsp f) s))
    exact ⟨[_, _, _], rfl, by simpa [obsAdmitted, length_commandFrame] using hnow, fun _ => .inr (.inr ⟨f, rfl⟩)⟩

/-! ## One result per request, one answer per transaction -/

theorem Paired.counts_of_idle {s : State} (hp : Paired s) (hi : BlockInv s) (hq : s.seq = .idle) :
    openOperations s.trace = 0 ∧ openTransactions s.trace = 0 :=
  ⟨by simpa [hq] using hp.operations, by simpa [hi.outstandingIs, expectedTransaction, hq] using hp.transactions⟩

/-- Where an answer is awaited, one operation and one transaction are open. -/
theorem Paired.counts_of_awaiting {s : State} (hp : Paired s) (hi : BlockInv s)
    (hq : s.seq = .srRead ∨ s.seq = .cpRead ∨ s.seq = .wrPend ∨ s.seq = .pollRead) :
    openOperations s.trace = 1 ∧ openTransactions s.trace = 1 := by
  obtain ⟨hops, htrs⟩ := hp
  rcases hq with hq | hq | hq | hq <;> simp_all [hi.outstandingIs, expectedTransaction]

/-- Where the block goes on by itself, one operation is open and no transaction. -/
theorem Paired.counts_of_busy {s : State} (hp : Paired s) (hi : BlockInv s)
    (hq : s.seq = .transactionSent ∨ s.seq = .pollingReady ∨ s.seq = .pollingTimedOut ∨ s.seq = .done) :
    openOperations s.trace = 1 ∧ openTransactions s.trace = 0 := by
  obtain ⟨hops, htrs⟩ := hp
  rcases hq with hq | hq | hq | hq <;> simp_all [hi.outstandingIs, expectedTransaction]

/-- A request opens an operation and a result closes it; a transaction is opened and closed likewise. -/
theorem paired_of_move {s t : State} (hi : BlockInv s) (hp : Paired s) (hm : Move s t) : Paired t := by
  cases hm with
  | outside => exact ⟨hp.operations, hp.transactions⟩
  | port ho => rcases ho with ⟨f, n, rfl⟩ | ⟨d, rfl⟩ <;> exact ⟨hp.operations, hp.transactions⟩
  | acceptsRead hq | acceptsExecute hq | acceptsCondPersist hq =>
    obtain ⟨hops, htrs⟩ := hp.counts_of_idle hi hq
    exact ⟨by simp [openOperations, hops], by simp [openTransactions, htrs]⟩
  | writeAnswered hq _ _ hnext =>
    obtain ⟨hops, htrs⟩ := hp.counts_of_awaiting hi (by simp [hq])
    refine ⟨?_, by simp [openTransactions, htrs]⟩
    rcases hnext with rfl | ⟨rfl, _⟩ <;> simpa [openOperations] using hops
  | readEnds hq =>
    obtain ⟨hops, htrs⟩ := hp.counts_of_awaiting hi (by tauto)
    exact ⟨by simp [openOperations, hops], by simp [openTransactions, htrs]⟩
  | mismatches hq =>
    obtain ⟨hops, htrs⟩ := hp.counts_of_awaiting hi (by simp [hq])
    exact ⟨by simp [openOperations, hops], by simp [openTransactions, htrs]⟩
  | polled hq _ _ hnext =>
    obtain ⟨hops, htrs⟩ := hp.counts_of_awaiting hi (by simp [hq])
    refine ⟨?_, by simp [openTransactions, htrs]⟩
    rcases hnext with rfl | rfl <;> simpa [openOperations] using hops
  | timesOut hq =>
    obtain ⟨hops, htrs⟩ := hp.counts_of_busy hi (by simp [hq])
    exact ⟨by simp [openOperations, hops],
      by simp [openTransactions, htrs, hi.outstanding_eq_none (.inr (.inl hq))]⟩
  | polls hq =>
    obtain ⟨hops, htrs⟩ := hp.counts_of_busy hi (by simp [hq])
    exact ⟨by simp [openOperations, hops], by simp [openTransactions, htrs]⟩
  | pollEnds hq =>
    obtain ⟨hops, _⟩ := hp.counts_of_busy hi (by tauto)
    exact ⟨by simp [hops], hp.transactions⟩
  | responds hq =>
    obtain ⟨hops, htrs⟩ := hp.counts_of_busy hi (by simp [hq])
    exact ⟨by simp [respond, openOperations, hops],
      by simp [respond, openTransactions, htrs, hi.outstanding_eq_none (by simp [hq])]⟩

/-- A reset opens the counts again. -/
theorem paired_construct (c : Cfg) (s : State) : Paired (construct c s) := ⟨rfl, rfl⟩

/-- Taking an event from the inbox touches neither the invariant nor the observations. -/
theorem blockInv_taken {s : State} (hi : BlockInv s) (inbox : List Event) (st : Byte) :
    BlockInv { s with inbox := inbox, twStatus := st } :=
  ⟨hi.cfgAdmitted, hi.t0Fits, hi.outstandingIs, hi.latches⟩

/-! ## The result tells the write's status -/

/-- R137 along a move: only the completion of the write sets RES.OK in a write operation. -/
theorem okTellsStatus_of_move {s t : State} (hk : okTellsStatus s) (hm : Move s t) : okTellsStatus t := by
  cases hm with
  | outside => exact hk
  | port ho => rcases ho with ⟨f, n, rfl⟩ | ⟨d, rfl⟩ <;> exact hk
  | acceptsRead | acceptsExecute | acceptsCondPersist => rfl
  | writeAnswered hq p x hnext =>
    rcases hnext with rfl | ⟨rfl, hst⟩
    · simp [okTellsStatus, writeStatus]
    · simp [okTellsStatus, writeStatus, hst]
  | readEnds hq =>
    have hnone : writeStatus s.trace = none := by
      rcases hq with hq | hq <;> simpa only [okTellsStatus, hq] using hk
    simp [okTellsStatus, writeStatus, hnone]
  | mismatches hq =>
    simp only [okTellsStatus, hq] at hk
    exact hk
  | polled hq _ _ hnext =>
    simp only [okTellsStatus, hq] at hk
    rcases hnext with rfl | rfl <;> exact hk
  | timesOut hq | polls hq =>
    simp only [okTellsStatus, hq] at hk
    exact hk
  | pollEnds hq =>
    have hzero : writeStatus s.trace = some 0#8 ∧ s.res.ok = true := by
      rcases hq with hq | hq <;> simpa only [okTellsStatus, hq] using hk
    obtain ⟨hst, hok⟩ := hzero
    simp [okTellsStatus, hst, hok]
  | responds => trivial

/-- Only the step out of DONE gives a result (R136). -/
theorem Move.done_of_hostRsp {s t : State} (hm : Move s t) {ok : Bool} {st : Option (BitVec 48)}
    (ht : t.trace = .hostRsp ok st :: s.trace) :
    s.seq = .done ∧ ok = s.res.ok ∧ st = if s.req.op = .statusRead then some (statusWord s.res.status) else none := by
  cases hm with
  | responds hq => simp_all [respond]
  | port ho => rcases ho with ⟨f, n, rfl⟩ | ⟨d, rfl⟩ <;> simp at ht
  | _ => simp at ht

end Sys2Proof.Safety

section

open Sys2Proof Sys2Proof.Machine Sys2Proof.Safety

/-- Settles O40, by the invariant's lemma for each kind of step (`blockInv_step`). -/
theorem stepKeepsInvariant : Obligations.StepKeepsInvariant := fun _ _ => blockInv_step

/-- Settles O41: a move keeps the counts in line with the state, and a reset starts them again. -/
theorem stepKeepsPairing : Obligations.StepKeepsPairing := by
  intro s t hi hp h
  obtain ⟨inbox, st, hm | ⟨_, c, _, rfl⟩⟩ := step_move h
  · exact paired_of_move (blockInv_taken hi inbox st) ⟨hp.operations, hp.transactions⟩ hm
  · exact paired_construct c _

/-- Settles O42: every move keeps R137's invariant, and a result is given out of DONE, where it holds of RES.OK. -/
theorem resultTellsWriteStatusOnly : Obligations.ResultTellsWriteStatusOnly := by
  intro s t _ hk h
  obtain ⟨inbox, st, hm | ⟨_, c, _, rfl⟩⟩ := step_move h
  · refine ⟨okTellsStatus_of_move (s := { s with inbox := inbox, twStatus := st }) hk hm, fun ok record ht => ?_⟩
    obtain ⟨hq, rfl, rfl⟩ := hm.done_of_hostRsp ht
    change s.seq = .done at hq
    simp only [okTellsStatus, hq] at hk
    exact ⟨hk, fun hop => if_neg hop⟩
  · exact ⟨trivial, fun ok record ht => by simp at ht⟩

/-- Settles O44: each move is a row of the table, and a reset leads to IDLE. -/
theorem sequencerFollowsTheTable : Obligations.SequencerFollowsTheTable := by
  intro s t h
  obtain ⟨inbox, st, hm | ⟨hr, c, _, rfl⟩⟩ := step_move h
  · exact hm.seq_edge.imp_right .inl
  · exact .inr (.inr ⟨hr, rfl⟩)

/-- Settles O45: no move writes CFG. -/
theorem configurationIsImmutable : Obligations.ConfigurationIsImmutable := by
  intro s t h hr
  obtain ⟨inbox, st, hm⟩ := move_of_step h hr
  exact hm.cfg_eq

/-- Settles O46: no move from behind the write's completion touches RES.OK, a latch or T0. -/
theorem resultIsFinalAfterTheWrite : Obligations.ResultIsFinalAfterTheWrite := by
  intro s t h hr hseq
  obtain ⟨inbox, st, hm⟩ := move_of_step h hr
  exact hm.result_final hseq

/-- Settles O47: what a move adds is admitted, and a reset adds no transaction and no sample. -/
theorem stepsAddAdmittedEventsOnly : Obligations.StepsAddAdmittedEventsOnly := by
  intro s t h
  obtain ⟨inbox, st, hm | ⟨_, c, _, rfl⟩⟩ := step_move h
  · obtain ⟨new, htrace, hadmitted, _⟩ := hm.added
    exact ⟨new, htrace, hadmitted⟩
  · exact ⟨[.reset], rfl, by simp [obsAdmitted]⟩

/-- Settles O48: from IDLE and from the timeout test nothing is outstanding; the only other move that issues a
transaction takes an answer first. -/
theorem oneTransactionAtATime : Obligations.OneTransactionAtATime := by
  intro s t hi h new htrace hissued
  obtain ⟨inbox, st, hm | ⟨_, c, _, rfl⟩⟩ := step_move h
  · obtain ⟨new', htrace', _, hsource⟩ := hm.added
    obtain rfl : new = new' := List.append_cancel_right (htrace.symm.trans htrace')
    rcases hsource hissued with hq | hq | hanswer
    · exact .inl (hi.outstanding_eq_none (.inl hq))
    · exact .inl (hi.outstanding_eq_none (.inr (.inl hq)))
    · exact .inr hanswer
  · obtain rfl : new = [.reset] := List.append_cancel_right htrace.symm
    simp [isWrite, isRead] at hissued

end

namespace Sys2Proof.Machine

/-! ## The encoder's frames as header and value bytes -/

theorem frame8_eq_bytes (c : Cfg) (ref : Ref) (gain : Bool) (value : Value) (persist : Bool) :
    frame8 c ref gain value persist = headerByte (selector c persist) ref gain :: valueBytes8 value := by
  rw [frame8, commandByte0_eq_headerByte, BitVec.setWidth_eq_extractLsb' (by decide)]
  rfl

theorem frame10_eq_bytes (c : Cfg) (ref : Ref) (gain : Bool) (value : Value) (persist : Bool) :
    frame10 c ref gain value persist = headerByte (selector c persist) ref gain :: valueBytes10 value := by
  rw [frame10, commandByte0_eq_headerByte, BitVec.extractLsb'_setWidth_of_le (by decide),
    BitVec.extractLsb'_setWidth_of_le (by decide)]
  rfl

theorem frame12_eq_bytes (c : Cfg) (ref : Ref) (gain : Bool) (value : Value) (persist : Bool) :
    frame12 c ref gain value persist = headerByte (selector c persist) ref gain :: valueBytes12 value := by
  rw [frame12, commandByte0_eq_headerByte, BitVec.extractLsb'_setWidth_of_le (by decide),
    BitVec.extractLsb'_setWidth_of_le (by decide)]
  rfl

/-- The encoder writes the header byte and the value bytes of the wire format (R81 to R84, R120 to R123). -/
theorem commandFrame_eq_bytes (c : Cfg) (ref : Ref) (gain : Bool) (value : Value) (persist : Bool) :
    commandFrame c ref gain value persist = headerByte (selector c persist) ref gain :: valueBytes c.variant value := by
  unfold commandFrame
  cases c.variant
  case v8 => exact frame8_eq_bytes ..
  case v10 => exact frame10_eq_bytes ..
  case v12 => exact frame12_eq_bytes ..

theorem toNat_truncate (v : Variant) (value : Value) : (truncate v value).toNat = value.toNat % 2 ^ width v := by
  cases v <;> simp only [truncate, width, BitVec.toNat_setWidth] <;> omega

theorem toNat_truncate_le (v : Variant) (value : Value) : (truncate v value).toNat ≤ vmax v := by
  rw [toNat_truncate]
  cases v <;> simp only [width, vmax] <;> omega

/-- An in-range value is not truncated (R92). -/
theorem truncate_of_le {v : Variant} {value : Value} (h : value.toNat ≤ vmax v) : truncate v value = value := by
  refine BitVec.eq_of_toNat_eq ?_
  rw [toNat_truncate]
  cases v <;> simp only [width, vmax] at h ⊢ <;> omega

/-- The value bytes hold the low WIDTH bits and no others (R124). -/
theorem valueBytes_truncate (v : Variant) (value : Value) : valueBytes v (truncate v value) = valueBytes v value := by
  have low {k j : Nat} {w : Nat} (h : k + j ≤ w) (hw : w ≤ 16) :
      ((value.setWidth w).setWidth 16).extractLsb' k j = value.extractLsb' k j := by
    rw [BitVec.extractLsb'_setWidth_of_le (by omega), BitVec.extractLsb'_setWidth_of_le h]
  cases v
  case v8 => rw [valueBytes, valueBytes8, truncate, low (by decide) (by decide)]; rfl
  case v10 => rw [valueBytes, valueBytes10, truncate, low (by decide) (by decide), low (by decide) (by decide)]; rfl
  case v12 => rw [valueBytes, valueBytes12, truncate, low (by decide) (by decide), low (by decide) (by decide)]; rfl

/-- What the encoder sends is a command frame of the wire format, of the value's low WIDTH bits (R14, R91). -/
theorem commandFrame_eq_encode (c : Cfg) (ref : Ref) (gain : Bool) (value : Value) (persist : Bool) :
    commandFrame c ref gain value persist =
      encode c (frameInstr c.variant persist ref gain (truncate c.variant value)) := by
  rw [commandFrame_eq_bytes, encode_frameInstr, valueBytes_truncate]

/-- Taking the value bits out of a frame's value bytes gives the low WIDTH bits (R88, R126). -/
theorem extractValue_valueBytes (v : Variant) (b0 : Byte) (value : Value) :
    extractValue v (b0 :: valueBytes v value) = some (truncate v value) := by
  cases v
  case v8 => rw [truncate, BitVec.setWidth_eq_extractLsb' (by decide : 8 ≤ 16)]; rfl
  case v10 =>
    have hlow : (value.extractLsb' 0 2 ++ 0#6).extractLsb' 6 2 = value.extractLsb' 0 2 :=
      BitVec.extractLsb'_append_eq_left
    simp only [valueBytes, valueBytes10, extractValue, hlow]
    refine congrArg some (BitVec.eq_of_getLsbD_eq fun i hi => ?_)
    interval_cases i <;> simp [truncate]
  case v12 =>
    have hlow : (value.extractLsb' 0 4 ++ 0#4).extractLsb' 4 4 = value.extractLsb' 0 4 :=
      BitVec.extractLsb'_append_eq_left
    simp only [valueBytes, valueBytes12, extractValue, hlow]
    refine congrArg some (BitVec.eq_of_getLsbD_eq fun i hi => ?_)
    interval_cases i <;> simp [truncate]

theorem extractValue_commandFrame (c : Cfg) (ref : Ref) (gain : Bool) (value : Value) (persist : Bool) :
    extractValue c.variant (commandFrame c ref gain value persist) = some (truncate c.variant value) := by
  rw [commandFrame_eq_bytes, extractValue_valueBytes]

/-- Bit 2 of a header byte is the gain bit (R81). -/
theorem gain_bit_headerByte (cmd : BitVec 3) (ref : Ref) (gain : Bool) :
    (headerByte cmd ref gain).toNat / 4 % 2 = 1 ↔ gain = true := by
  rw [toNat_headerByte]
  cases gain <;> simp <;> omega

theorem nz_eq_true_iff (g : Byte) : nz g = true ↔ g ≠ 0#8 := bne_iff_ne

/-- Operands that are zero together are the same gain bit (R24). -/
theorem nz_congr {g g' : Byte} (h : g = 0#8 ↔ g' = 0#8) : nz g = nz g' := by
  rw [Bool.eq_iff_iff, nz_eq_true_iff, nz_eq_true_iff, ne_eq, ne_eq, h]

/-! ## Acceptance in IDLE -/

theorem exec_statusRead_of_idle {s : State} (hq : s.seq = .idle) :
    exec .statusRead s =
      .next (issueRead .srRead { observe (.hostReq .statusRead) s with req := { s.req with op := .statusRead } }) := by
  rw [exec, execStatusRead]
  exact whenIdle_of_idle hq

theorem exec_execute_of_idle {s : State} (hq : s.seq = .idle) (p : Bool) (ref : Ref) (g : Byte) (v : Value) :
    exec (.execute p ref g v) s =
      .next (startWrite ref (nz g) v p
        { observe (.hostReq (.execute p ref g v)) s with req := ⟨.execute, ref, nz g, v, p⟩ }) := by
  rw [exec, execExecute]
  exact whenIdle_of_idle hq

theorem exec_condPersist_of_idle {s : State} (hq : s.seq = .idle) (ref : Ref) (g : Byte) (v : Value) :
    exec (.condPersist ref g v) s =
      .next (issueRead .cpRead
        { observe (.hostReq (.condPersist ref g v)) s with req := ⟨.condPersist, ref, nz g, v, true⟩ }) := by
  rw [exec, execCondPersist]
  exact whenIdle_of_idle hq

/-! ## The pure ports -/

theorem onPort_of_fits {b : Bool} (hb : b = true) (o : Obs) (s : State) : onPort b o s = .next (observe o s) :=
  if_pos hb

/-- A two-byte frame on the encoder's port: byte 2 is zero (R90). -/
theorem toNat_encFrame_two (b0 b1 : Byte) : (encFrame [b0, b1]).toNat = b0.toNat * 65536 + b1.toNat * 256 := by
  simp only [encFrame, toNat_append_eq_add, BitVec.toNat_zero]
  omega

theorem toNat_encFrame_three (b0 b1 b2 : Byte) :
    (encFrame [b0, b1, b2]).toNat = b0.toNat * 65536 + b1.toNat * 256 + b2.toNat := by
  simp only [encFrame, toNat_append_eq_add]
  omega

/-- Byte 0 of a command frame stands in bits 23:16 of the port (R90). -/
theorem encFrame_byte0 (v : Variant) (b0 : Byte) (value : Value) :
    (encFrame (b0 :: valueBytes v value)).toNat / 65536 = b0.toNat := by
  have two (b1 : Byte) : (encFrame [b0, b1]).toNat / 65536 = b0.toNat := by
    rw [toNat_encFrame_two]; omega
  have three (b1 b2 : Byte) : (encFrame [b0, b1, b2]).toNat / 65536 = b0.toNat := by
    rw [toNat_encFrame_three]; omega
  cases v
  case v8 => exact two _
  case v10 => exact three _ _
  case v12 => exact three _ _

/-! ## The status decoder, backwards (R112) -/

theorem setWidth_byte_inj {a b : Byte} (h : a.setWidth 16 = b.setWidth 16) : a = b := by
  have hwide := congrArg (BitVec.setWidth 8) h
  rwa [BitVec.setWidth_setWidth_of_le _ (by decide), BitVec.setWidth_setWidth_of_le _ (by decide),
    BitVec.setWidth_eq, BitVec.setWidth_eq] at hwide

theorem append_bytes_inj {a b a' b' : Byte} (h : a ++ b = a' ++ b') : a = a' ∧ b = b' := by
  have hnum := congrArg BitVec.toNat h
  rw [toNat_append_bytes, toNat_append_bytes] at hnum
  have := b.isLt
  have := b'.isLt
  exact ⟨BitVec.eq_of_toNat_eq (by omega), BitVec.eq_of_toNat_eq (by omega)⟩

theorem append_bytes_of_value (v : Value) : v.extractLsb' 8 8 ++ v.extractLsb' 0 8 = v := by
  rw [BitVec.extractLsb'_append_extractLsb'_eq_extractLsb' (by decide)]
  exact BitVec.extractLsb'_eq_self

/-- The record on the decoder's port, in plain numbers (R89). -/
theorem toNat_statusWord (d : DeviceStatus) : (statusWord d).toNat =
    d.vcfg.toNat * 2 ^ 40 + d.vval.toNat * 2 ^ 24 + d.nvcfg.toNat * 2 ^ 16 + d.nvval.toNat := by
  simp only [statusWord, toNat_append_eq_add]
  omega

/-- The encoder's three operations, each where its variant is the one built (R94). -/
theorem exec_encode_of_fits {s : State} {i : Instr} {p : Bool} {ref : Ref} {g : Byte} {v : Value}
    (hi : i ∈ [Instr.encode8 p ref g v, .encode10 p ref g v, .encode12 p ref g v])
    (hfits : i.fits s.cfg.variant = true) :
    exec i s = .next (observe (.encPort (encFrame (commandFrame s.cfg ref (nz g) v p)) (cmdLen s.cfg.variant)) s) := by
  simp only [List.mem_cons, List.not_mem_nil, or_false] at hi
  rcases hi with rfl | rfl | rfl <;> simp only [Instr.fits] at hfits <;> refine (onPort_of_fits hfits _ s).trans ?_ <;>
    rw [commandFrame, beq_iff_eq.mp hfits] <;> rfl

/-! ## The request word -/

/-- The op field of a request word, in plain numbers (R89). -/
theorem extract_op_eq_iff {w : BitVec 32} {op : BitVec 2} : w.extractLsb' 30 2 = op ↔ w.toNat / 2 ^ 30 = op.toNat := by
  rw [← BitVec.toNat_inj, BitVec.extractLsb'_toNat, Nat.shiftRight_eq_div_pow]
  omega

theorem op_cases : ∀ op : BitVec 2, op = 0b00#2 ∨ op = 0b01#2 ∨ op = 0b10#2 ∨ op = 0b11#2 := by
  decide

/-- Masking off bits that no field holds does not change the request (R89, R92). -/
theorem decodeRequest_congr {w w' : BitVec 32} (hop : w.extractLsb' 30 2 = w'.extractLsb' 30 2)
    (hpersist : w.extractLsb' 30 2 = 0b11#2 ∨ w.getLsbD 29 = w'.getLsbD 29)
    (href : w.extractLsb' 27 2 = w'.extractLsb' 27 2) (hgain : w.extractLsb' 16 8 = w'.extractLsb' 16 8)
    (hvalue : w.extractLsb' 0 16 = w'.extractLsb' 0 16) : decodeRequest w = decodeRequest w' := by
  rcases hpersist with hcond | hpersist
  · simp only [decodeRequest, ← hop, ← href, ← hgain, ← hvalue, hcond]
    rfl
  · simp only [decodeRequest, hop, hpersist, href, hgain, hvalue]

/-- A field whose bits a mask keeps (R89). -/
theorem extract_and_of_ones {n : Nat} (w : BitVec n) {mask : BitVec n} {k len : Nat}
    (h : mask.extractLsb' k len = BitVec.allOnes len) : (w &&& mask).extractLsb' k len = w.extractLsb' k len := by
  rw [BitVec.extractLsb'_and, h, BitVec.and_allOnes]

end Sys2Proof.Machine

section

open Sys2Proof Sys2Proof.Machine

/-- Settles O5: the masks keep every field that the operation reads. -/
theorem requestWordIgnoresReservedBits : Obligations.RequestWordIgnoresReservedBits := by
  intro c w
  simp only [decode_request_bytes32]
  refine ⟨?_, fun h3 => ?_, fun h1 => ?_, ?_⟩
  · exact decodeRequest_congr (extract_and_of_ones w (by decide)) (.inr (by simp))
      (extract_and_of_ones w (by decide)) (extract_and_of_ones w (by decide)) (extract_and_of_ones w (by decide))
  · have hkeep := extract_and_of_ones w (mask := 0xDFFFFFFF#32) (k := 30) (len := 2) (by decide)
    exact decodeRequest_congr hkeep (.inl (hkeep.trans (extract_op_eq_iff.mpr h3)))
      (extract_and_of_ones w (by decide)) (extract_and_of_ones w (by decide)) (extract_and_of_ones w (by decide))
  · exact if_pos (extract_op_eq_iff.mpr h1)
  · have hzero : w.toNat / 2 ^ 30 = 0 ↔ w.extractLsb' 30 2 = 0#2 :=
      (extract_op_eq_iff (op := 0#2)).symm
    rw [hzero, decodeRequest]
    rcases op_cases (w.extractLsb' 30 2) with h | h | h | h <;> simp [h]

/-- Settles O9: the value bits of a frame are the value's low WIDTH bits. -/
theorem extractInvertsEncoderInRange : Obligations.ExtractInvertsEncoderInRange :=
  fun c ref gain value persist =>
    ⟨_, extractValue_commandFrame c ref gain value persist, toNat_truncate _ value, fun h => truncate_of_le h⟩

/-- Settles O10: each field is read back from the frame. -/
theorem encoderIsInjective : Obligations.EncoderIsInjective := by
  intro c ref ref' gain gain' value value' persist persist' hc h
  have hvalue := congrArg (extractValue c.variant) h
  rw [extractValue_commandFrame, extractValue_commandFrame, Option.some_inj] at hvalue
  rw [commandFrame_eq_bytes, commandFrame_eq_bytes, List.cons.injEq] at h
  have hpersist := congrArg (selectorPersists c) h.1
  have href := congrArg frameRef h.1
  have hgain := congrArg frameGain h.1
  rw [selectorPersists_headerByte hc, selectorPersists_headerByte hc, Except.ok.injEq] at hpersist
  rw [frameRef_headerByte, frameRef_headerByte] at href
  rw [frameGain_headerByte, frameGain_headerByte] at hgain
  rw [← toNat_truncate, ← toNat_truncate, hvalue]
  exact ⟨hpersist, href, hgain, rfl⟩

/-- Settles O11: every operation reads the gain operand through `nz`, and the frame holds it in bit 2 of byte 0. -/
theorem nonzeroGainIsGainOn : Obligations.NonzeroGainIsGainOn := by
  intro s p ref g g' v hg
  have hnz := nz_congr hg
  have hoff : nz g = false ↔ g = 0#8 := by rw [← Bool.not_eq_true, nz_eq_true_iff, not_not]
  refine ⟨fun hq => ?_, fun hq => ?_, fun gain => ?_, ?_, ?_, ?_, fun i hi hfits => ?_⟩
  · refine ⟨_, _, exec_execute_of_idle hq .., exec_execute_of_idle hq .., ?_, ?_, hoff, ?_⟩
    · simp [hnz]
    · simp [hnz]
    · rw [startWrite_outstanding, commandFrame_eq_bytes]
      exact ⟨_, _, rfl, by rw [gain_bit_headerByte, nz_eq_true_iff]⟩
  · refine ⟨_, _, exec_condPersist_of_idle hq .., exec_condPersist_of_idle hq .., ?_, ?_, hoff⟩
    · simp [hnz]
    · simp
  · exact ⟨_, _, commandFrame_eq_bytes .., gain_bit_headerByte ..⟩
  · simp only [exec, execEncode8, hnz]
  · simp only [exec, execEncode10, hnz]
  · simp only [exec, execEncode12, hnz]
  · refine ⟨_, _, exec_encode_of_fits hi hfits, ?_⟩
    rw [commandFrame_eq_bytes, ← nz_eq_true_iff, ← gain_bit_headerByte (selector s.cfg p) ref,
      ← encFrame_byte0 s.cfg.variant _ v, Nat.div_div_eq_div_mul]
    exact Iff.rfl

/-- Settles O12: the operation of the variant that is built shows the encoder's frame, whose bytes are known in
plain numbers. -/
theorem encodePortGivesTheFrame : Obligations.EncodePortGivesTheFrame := by
  intro s p ref g v
  have hb0 := toNat_commandByte0_nz s.cfg ref g p
  refine ⟨fun hv => ?_, fun hv => ?_, fun hv => ?_⟩
  · refine ⟨_, onPort_of_fits (beq_iff_eq.mpr hv) _ s, ?_⟩
    simp only [frame8, toNat_encFrame_two, hb0, BitVec.toNat_setWidth, Nat.reducePow]
  · refine ⟨_, onPort_of_fits (beq_iff_eq.mpr hv) _ s, ?_⟩
    have hb1 := toNat_topByte v 2
    have hb2 := toNat_lowBits_padded v (k := 2) (w := 10) 6 (by decide)
    simp only [frame10, toNat_encFrame_three, hb0, hb1, hb2, Nat.reduceAdd, Nat.reducePow]
    omega
  · refine ⟨_, onPort_of_fits (beq_iff_eq.mpr hv) _ s, ?_⟩
    have hb1 := toNat_topByte v 4
    have hb2 := toNat_lowBits_padded v (k := 4) (w := 12) 4 (by decide)
    simp only [frame12, toNat_encFrame_three, hb0, hb1, hb2, Nat.reduceAdd, Nat.reducePow]
    omega

/-- Settles O16: the numbers of a record's fields give the bytes back, and any 16 bits are two bytes. -/
theorem decodersLoseNothing : Obligations.DecodersLoseNothing := by
  refine ⟨fun a0 a1 a2 a3 b0 b1 b2 b3 h => ?_, fun a0 a1 a2 a3 a4 a5 b0 b1 b2 b3 b4 b5 h => ?_, fun d => ?_⟩
  · simp only [statusOfNarrow, DeviceStatus.mk.injEq] at h
    obtain ⟨h0, h1, h2, h3⟩ := h
    rw [h0, setWidth_byte_inj h1, h2, setWidth_byte_inj h3]
  · simp only [statusOfWide, DeviceStatus.mk.injEq] at h
    obtain ⟨h0, h12, h3, h45⟩ := h
    obtain ⟨h1, h2⟩ := append_bytes_inj h12
    obtain ⟨h4, h5⟩ := append_bytes_inj h45
    rw [h0, h1, h2, h3, h4, h5]
  · obtain ⟨vcfg, vval, nvcfg, nvval⟩ := d
    refine ⟨vcfg, vval.extractLsb' 8 8, vval.extractLsb' 0 8, nvcfg, nvval.extractLsb' 8 8, nvval.extractLsb' 0 8, ?_⟩
    rw [statusOfWide, append_bytes_of_value, append_bytes_of_value]

/-- Settles O17: the operation shows the record of the frame, whose fields are known in plain numbers. -/
theorem decodePortGivesTheRecord : Obligations.DecodePortGivesTheRecord := by
  intro s s0 s1 s2 s3 s4 s5
  refine ⟨fun hv => ?_, fun hv => ?_⟩
  · refine ⟨_, onPort_of_fits (beq_iff_eq.mpr hv) _ s, ?_⟩
    obtain ⟨h0, h1, h2, h3⟩ := narrowDecodeZeroExtends s0 s1 s2 s3
    rw [toNat_statusWord, h0, h1, h2, h3]
  · have hfits : (s.cfg.variant != .v8) = true := by rcases hv with hv | hv <;> rw [hv] <;> rfl
    refine ⟨_, onPort_of_fits hfits _ s, ?_⟩
    obtain ⟨h0, h1, h3, h4⟩ := wideDecodeIsBigEndian s0 s1 s2 s3 s4 s5
    rw [toNat_statusWord, h0, h1, h3, h4]
    omega

/-- Settles O2: each field is a quotient of the byte, and the packing writes each field where it is read. -/
theorem configStatusFieldsRoundTrip : Obligations.ConfigStatusFieldsRoundTrip := by
  refine ⟨fun c => ?_, fun r p u g ref d => ?_⟩
  · have hbits := c.isLt
    refine ⟨?_, ?_, ?_, ?_, ?_, ?_, packConfig_fields c⟩
    · rw [rdy, getLsbD_eq_decide, decide_eq_decide]
      omega
    · exact getLsbD_eq_decide c 6
    · exact getLsbD_eq_decide c 5
    · rw [vref, BitVec.extractLsb'_toNat, Nat.shiftRight_eq_div_pow]
    · rw [pd, BitVec.extractLsb'_toNat, Nat.shiftRight_eq_div_pow]
    · rw [gainFlag, getLsbD_eq_decide, Nat.pow_zero, Nat.div_one]
  · refine ⟨?_, ?_, ?_, ?_, ?_, ?_⟩
    · simp [rdy, packConfig]
    · simp [por, packConfig]
    · simp [unusedBit, packConfig]
    · refine BitVec.eq_of_getLsbD_eq fun i hi => ?_
      interval_cases i <;> simp [vref, packConfig]
    · refine BitVec.eq_of_getLsbD_eq fun i hi => ?_
      interval_cases i <;> simp [pd, packConfig]
    · simp [gainFlag, packConfig]

/-- Settles O6: each word is decoded by computation. -/
theorem writtenOutWordsDecode : Obligations.WrittenOutWordsDecode :=
  ⟨rfl, rfl, rfl, rfl, rfl, rfl, rfl, rfl⟩

end

namespace Sys2Proof.Machine

/-! ## One step, by what the next event presents -/

theorem step_of_nil {s : State} (h : s.inbox = []) : step s = .next (ownStep s) := by
  simp only [step, h]

theorem step_of_decoded {s : State} {e : Event} {rest : List Event} {i : Instr} (h : s.inbox = e :: rest)
    (hf : fetch e (latch e { s with inbox := rest }) = some (.ok i)) :
    step s = exec i (latch e { s with inbox := rest }) := by
  simp only [step, h, hf]

theorem step_of_rejected {s : State} {e : Event} {rest : List Event} {r : Reject} (h : s.inbox = e :: rest)
    (hf : fetch e (latch e { s with inbox := rest }) = some (.error r)) :
    step s = rejected r (latch e { s with inbox := rest }) := by
  simp only [step, h, hf]

theorem step_of_environment {s : State} {e : Event} {rest : List Event} (h : s.inbox = e :: rest)
    (hf : fetch e (latch e { s with inbox := rest }) = none) :
    step s = environment e (latch e { s with inbox := rest }) := by
  simp only [step, h, hf]

theorem step_tick {s : State} {rest : List Event} (h : s.inbox = .tick :: rest) :
    step s = .next (ownStep { s with inbox := rest }) :=
  step_of_environment h rfl

/-- A request word that decodes runs (R130). -/
theorem step_request {s : State} {w : BitVec 32} {rest : List Event} {i : Instr} (h : s.inbox = .request w :: rest)
    (hd : decode s.cfg .request (bytes32 w) = .ok i) : step s = exec i { s with inbox := rest } :=
  step_of_decoded h (congrArg some hd)

/-- Outside IDLE a status frame that decodes runs (R52). -/
theorem step_readDone {s : State} {frame : List Byte} {rest : List Event} {i : Instr}
    (h : s.inbox = .readDone frame :: rest) (hq : s.seq ≠ .idle) (hd : decode s.cfg .status frame = .ok i) :
    step s = exec i { s with inbox := rest } :=
  step_of_decoded h ((fetch_readDone (s := { s with inbox := rest }) frame hq).trans (congrArg some hd))

/-- In IDLE a status frame is dropped (R190). -/
theorem step_readDone_of_idle {s : State} {frame : List Byte} {rest : List Event}
    (h : s.inbox = .readDone frame :: rest) (hq : s.seq = .idle) : step s = .next { s with inbox := rest } :=
  step_of_environment h (fetch_readDone_idle (s := { s with inbox := rest }) frame hq)

/-- The completion of an outstanding write presents the frame it carried (R51). -/
theorem step_writeDone {s : State} {st : Byte} {rest : List Event} {addr : Addr} {frame : List Byte} {i : Instr}
    (h : s.inbox = .writeDone st :: rest) (ho : s.outstanding = some (.write addr frame))
    (hd : decode s.cfg .command frame = .ok i) : step s = exec i { s with inbox := rest, twStatus := st } := by
  refine step_of_decoded h ?_
  simp only [fetch, presented, latch, ho, hd]

/-- A completion status that no outstanding write awaits presents nothing (R190). -/
theorem step_writeDone_of_unawaited {s : State} {st : Byte} {rest : List Event}
    (h : s.inbox = .writeDone st :: rest) (ho : ∀ addr frame, s.outstanding ≠ some (.write addr frame)) :
    step s = environment (.writeDone st) { s with inbox := rest, twStatus := st } := by
  refine step_of_environment h ?_
  cases hout : s.outstanding with
  | none => simp only [fetch, presented, latch]
  | some tr =>
    cases tr with
    | write addr frame => exact absurd hout (ho addr frame)
    | read addr n => simp only [fetch, presented, latch]

/-! ## Instructions where they have a step -/

theorem whenIdle_of_busy {f : State → State} {s : State} (hq : s.seq ≠ .idle) : whenIdle f s = .next s :=
  if_neg hq

/-- A command frame is the write transaction that carries its bytes and its settings (R51, R57). -/
theorem exec_frameInstr (v : Variant) (p : Bool) (ref : Ref) (gain : Bool) (value : Value) (s : State) :
    exec (frameInstr v p ref gain value) s =
      carryWrite v p (encode s.cfg (frameInstr v p ref gain value))
        { ref := ref, gain := gain, value := truncate v value } s := by
  rw [encode_frameInstr]
  cases v
  case v8 => cases p <;> exact congrArg (carryWrite .v8 _ · _ s) (frame8_eq_bytes ..)
  case v10 => cases p <;> exact congrArg (carryWrite .v10 _ · _ s) (frame10_eq_bytes ..)
  case v12 => cases p <;> exact congrArg (carryWrite .v12 _ · _ s) (frame12_eq_bytes ..)

/-- The write's completion in one line: only RES.OK and SEQ change (R133). -/
theorem writeCompletes_eq (s : State) :
    writeCompletes s = { s with
      res := { s.res with ok := decide (s.twStatus.toNat = 0) }
      seq := if s.twStatus.toNat = 0 ∧ s.req.persist = true then .transactionSent else .done } := by
  have hzero : s.twStatus.toNat = 0 ↔ s.twStatus = 0#8 := BitVec.toNat_inj (y := 0#8)
  rcases writeCompletes_cases s with ⟨hst, h⟩ | ⟨hst, hp, h⟩ | ⟨hst, hp, h⟩ <;> rw [h] <;>
    simp [setOk, *]

theorem writeCompletes_device (s : State) : (writeCompletes s).device = s.device := by
  rw [writeCompletes_eq]

theorem exec_statusN_of_v8 {s : State} (hv : s.cfg.variant = .v8) (s0 s1 s2 s3 : Byte) :
    exec (.statusN s0 s1 s2 s3) s = takeStatus [s0, s1, s2, s3] (statusOfNarrow s0 s1 s2 s3) s :=
  if_pos hv

theorem exec_statusW_of_wide {s : State} (hv : s.cfg.variant = .v10 ∨ s.cfg.variant = .v12)
    (s0 s1 s2 s3 s4 s5 : Byte) :
    exec (.statusW s0 s1 s2 s3 s4 s5) s =
      takeStatus [s0, s1, s2, s3, s4, s5] (statusOfWide s0 s1 s2 s3 s4 s5) s :=
  if_neg (by rcases hv with hv | hv <;> simp [hv])

theorem takeStatus_of_srRead {s : State} (hq : s.seq = .srRead) (f : List Byte) (d : DeviceStatus) :
    takeStatus f d s = .next (setOk true .done (setStatus d (closeTransaction (.trRsp f) s))) := by
  simp only [takeStatus, hq]

theorem takeStatus_of_cpRead {s : State} (hq : s.seq = .cpRead) (f : List Byte) (d : DeviceStatus) :
    takeStatus f d s = .next (compareStored d (setStatus d (closeTransaction (.trRsp f) s))) := by
  simp only [takeStatus, hq]

theorem takeStatus_of_pollRead {s : State} (hq : s.seq = .pollRead) (f : List Byte) (d : DeviceStatus) :
    takeStatus f d s = .next { setStatus d (closeTransaction (.trRsp f) s) with
      seq := if rdy d.vcfg then .pollingReady else .transactionSent } := by
  simp only [takeStatus, hq]

/-- Outside IDLE and the three reads no status frame is awaited (U16). -/
theorem takeStatus_of_unawaited {s : State} (hq : s.seq = .wrPend ∨ s.seq = .transactionSent ∨
    s.seq = .pollingReady ∨ s.seq = .pollingTimedOut ∨ s.seq = .done) (f : List Byte) (d : DeviceStatus) :
    takeStatus f d s = .refused .answerNotAwaited := by
  rcases hq with hq | hq | hq | hq | hq <;> simp only [takeStatus, hq]

/-- The ready bit, as a bound on the byte (R28, R135). -/
theorem rdy_eq_decide (b : Byte) : rdy b = decide (128 ≤ b.toNat) := by
  have := b.isLt
  rw [rdy, getLsbD_eq_decide, decide_eq_decide]
  omega

/-- COND_PERSIST's comparison in plain numbers (R139). -/
theorem storedMatches_iff (d : DeviceStatus) (r : Request) : storedMatches d r = true ↔
    d.nvcfg.toNat / 8 % 4 = r.ref.toNat ∧ (d.nvcfg.toNat % 2 = 1 ↔ r.gain = true) ∧
      d.nvval.toNat = r.value.toNat := by
  have href : vref d.nvcfg = r.ref ↔ d.nvcfg.toNat / 8 % 4 = r.ref.toNat := by
    rw [← BitVec.toNat_inj, vref, BitVec.extractLsb'_toNat, Nat.shiftRight_eq_div_pow]
  have hgain : gainFlag d.nvcfg = r.gain ↔ (d.nvcfg.toNat % 2 = 1 ↔ r.gain = true) := by
    rw [Bool.eq_iff_iff, gainFlag, getLsbD_eq_decide, decide_eq_true_iff, Nat.pow_zero, Nat.div_one]
  simp only [storedMatches, Bool.and_eq_true, beq_iff_eq, href, hgain, BitVec.toNat_inj, and_assoc]

/-! ## The clock -/

/-- The CLOCK_W-bit subtraction is the plain number of milliseconds on the counter (R141). -/
theorem elapsed_eq_msSince (w t t0 : Nat) : elapsed w (t % 2 ^ w) t0 = Safety.msSince w t0 t := by
  have hlt := Nat.mod_lt t0 (Nat.two_pow_pos w)
  rw [elapsed, Safety.msSince, BitVec.toNat_sub, BitVec.toNat_ofNat, BitVec.toNat_ofNat, Nat.mod_mod]
  congr 1
  omega

theorem timedOut_of_cons {s : State} {t : Nat} {ts : List Nat} (h : s.clockIn = t :: ts) :
    timedOut s.cfg.clockW (clockNow s) s.t0 = decide (100 ≤ Safety.msSince s.cfg.clockW s.t0 t) := by
  rw [clockNow_of_cons h, timedOut, elapsed_eq_msSince, timeoutMs]

theorem timeoutTest_of_timedOut {s : State} (h : timedOut s.cfg.clockW (clockNow s) s.t0 = true) :
    timeoutTest s = { afterClock s with seq := .pollingTimedOut } :=
  if_pos h

theorem timeoutTest_of_not_timedOut {s : State} (h : timedOut s.cfg.clockW (clockNow s) s.t0 = false) :
    timeoutTest s = issueRead .pollRead (afterClock s) :=
  if_neg (by simp [h])

/-! ## The block's own step, by state -/

theorem ownStep_of_transactionSent {s : State} (hq : s.seq = .transactionSent) : ownStep s = timeoutTest s := by
  simp only [ownStep, hq]

theorem ownStep_of_pollEnd {s : State} (hq : s.seq = .pollingReady ∨ s.seq = .pollingTimedOut) :
    ownStep s = { s with seq := .done } := by
  rcases hq with hq | hq <;> simp only [ownStep, hq]

theorem ownStep_of_done {s : State} (hq : s.seq = .done) : ownStep s = respond s := by
  simp only [ownStep, hq]

/-- Where the block waits it has no step of its own (R144). -/
theorem ownStep_of_waiting {s : State} (hq : s.seq = .idle ∨ s.seq = .srRead ∨ s.seq = .cpRead ∨
    s.seq = .wrPend ∨ s.seq = .pollRead) : ownStep s = s := by
  rcases hq with hq | hq | hq | hq | hq <;> simp only [ownStep, hq]

theorem decodeStatus_of_length_ne {c : Cfg} {frame : List Byte} (h : frame.length ≠ statusLen c.variant) :
    decode c .status frame = .error .frameLength := by
  simp only [decode]
  unfold decodeStatus
  split
  case h_4 => rfl
  all_goals
    rename_i hv
    rw [hv] at h
    exact absurd rfl h

/-- A frame of the variant's length is a status frame of its row, whose record is what the step takes (R113). -/
theorem exists_decode_status {c : Cfg} {frame : List Byte} (h : frame.length = statusLen c.variant) :
    ∃ i d, decode c .status frame = .ok i ∧ frame.head? = some d.vcfg ∧
      ∀ s : State, s.cfg = c → exec i s = takeStatus frame d s := by
  cases hv : c.variant
  case v8 =>
    obtain ⟨s0, s1, s2, s3, rfl⟩ := eq_four_bytes_of_statusLen hv h
    exact ⟨_, _, decode_status_narrow hv .., rfl, fun s hs => exec_statusN_of_v8 (hs ▸ hv) ..⟩
  case v10 =>
    obtain ⟨s0, s1, s2, s3, s4, s5, rfl⟩ := eq_six_bytes_of_statusLen (.inl hv) h
    exact ⟨_, _, decode_status_wide (.inl hv) .., rfl, fun s hs => exec_statusW_of_wide (hs ▸ .inl hv) ..⟩
  case v12 =>
    obtain ⟨s0, s1, s2, s3, s4, s5, rfl⟩ := eq_six_bytes_of_statusLen (.inr hv) h
    exact ⟨_, _, decode_status_wide (.inr hv) .., rfl, fun s hs => exec_statusW_of_wide (hs ▸ .inr hv) ..⟩

/-- The compare of COND_PERSIST on the record of a status frame of either width (R139). -/
theorem takeStatus_compares {s : State} (hq : s.seq = .cpRead) (f : List Byte) (d : DeviceStatus) {same : Prop}
    (hsame : storedMatches d s.req = true ↔ same) :
    ∃ t, takeStatus f d s = .next t ∧ t.cfg = s.cfg ∧ t.req = s.req ∧ t.res.status = d ∧
      t.inbox = s.inbox ∧ t.device = s.device ∧ t.twStatus = s.twStatus ∧
      (same → t.res.ok = true ∧ t.seq = .done ∧ t.outstanding = none ∧ t.t0 = s.t0 ∧
        t.clockIn = s.clockIn ∧ t.draws = s.draws ∧ t.trace = .trRsp f :: s.trace) ∧
      (¬ same → t.res.ok = s.res.ok ∧ t.seq = .wrPend ∧ t.clockIn = s.clockIn.tail ∧
        t.draws = s.draws + 1 ∧ (∀ x xs, s.clockIn = x :: xs → t.t0 = x % 2 ^ s.cfg.clockW) ∧
        let frame := commandFrame s.cfg s.req.ref s.req.gain s.req.value true
        t.outstanding = some (.write s.cfg.addr frame) ∧
        t.trace = .twReq s.cfg.addr frame :: .now t.t0 :: .trRsp f :: s.trace) := by
  refine ⟨_, takeStatus_of_cpRead hq f d, ?_⟩
  rw [← hsame]
  have hclock {x : Nat} {xs : List Nat} := clockNow_of_cons (s := setStatus d (closeTransaction (.trRsp f) s))
    (t := x) (ts := xs)
  rcases compareStored_cases d (setStatus d (closeTransaction (.trRsp f) s)) with ⟨hm, h⟩ | ⟨hm, h⟩ <;> rw [h]
  · exact ⟨rfl, rfl, rfl, rfl, rfl, rfl, fun _ => ⟨rfl, rfl, rfl, rfl, rfl, rfl, rfl⟩, fun hne => absurd hm hne⟩
  · exact ⟨rfl, rfl, rfl, rfl, rfl, rfl, fun he => absurd (hm.symm.trans he) (by decide),
      fun _ => ⟨rfl, rfl, rfl, rfl, fun x xs hx => hclock hx, rfl, rfl⟩⟩

/-- A decoded status frame in IDLE is dropped, as the step drops it (R190). -/
theorem exec_status_of_idle {c : Cfg} {frame : List Byte} {i : Instr} (hd : decode c .status frame = .ok i)
    {s : State} (hc : s.cfg = c) (hq : s.seq = .idle) : exec i s = .next s := by
  have hlen : frame.length = statusLen c.variant := by
    by_contra hlen
    rw [decodeStatus_of_length_ne hlen] at hd
    cases hd
  obtain ⟨j, d, hj, _, hexec⟩ := exists_decode_status hlen
  obtain rfl : i = j := Except.ok.inj (hd.symm.trans hj)
  rw [hexec s hc, takeStatus, hq]

end Sys2Proof.Machine

section

open Sys2Proof Sys2Proof.Machine Sys2Proof.Safety

/-! ## Acceptance -/

/-- Settles O18: in IDLE the request is taken, and one read is issued after the operation is latched. -/
theorem statusReadIsAccepted : Obligations.StatusReadIsAccepted := by
  intro s hq
  dsimp only
  rw [← statusLen_eq_ite]
  exact exec_statusRead_of_idle hq

/-- Settles O19: in IDLE the request is taken; T0 is the sample taken before the frame goes out. -/
theorem executeIsAccepted : Obligations.ExecuteIsAccepted := by
  intro s p ref g v hq
  refine ⟨clockNow s, clockNow_lt s, fun t ts h => clockNow_of_cons h, ?_⟩
  dsimp only
  rw [← nz_eq_decide]
  exact exec_execute_of_idle hq p ref g v

/-- Settles O21: outside IDLE acceptance leaves the state as it is. -/
theorem busyRequestsAreNotAccepted : Obligations.BusyRequestsAreNotAccepted := by
  intro s p ref g v hq
  rw [exec, exec, exec, execStatusRead, execExecute, execCondPersist]
  exact ⟨whenIdle_of_busy hq, whenIdle_of_busy hq, whenIdle_of_busy hq⟩

/-! ## Write completion -/

/-- Settles O22: the frame runs as the outstanding write, and its completion sets RES.OK and SEQ by the status. -/
theorem writeCompletionFollowsStatus : Obligations.WriteCompletionFollowsStatus := by
  intro s i hp hf hq ho
  obtain ⟨p, ref, gain, value, rfl⟩ := exists_frameInstr hp hf
  rw [exec_frameInstr, carryWrite_of_outstanding rfl hq ho, writeCompletes_eq]
  exact ⟨_, _, rfl⟩

/-- Settles O23: a frame that is certain to be delivered acts as its name says, with a value that fits. -/
theorem deliveredFrameSetsTheDevice : Obligations.DeliveredFrameSetsTheDevice := by
  intro s t i ref gain v hst hnv hlate hwf h
  have device {w : Variant} {p : Bool} (hi : i = frameInstr w p ref gain v) :
      t.device = if p then { vol := ⟨ref, gain, v⟩, nv := freeSettings w s.draws, nvWrite := some ⟨ref, gain, v⟩ }
        else { s.device with vol := ⟨ref, gain, v⟩ } := by
    subst hi
    rw [frameInstr_wf, decide_eq_true_iff] at hwf
    rw [exec_frameInstr, truncate_of_le hwf] at h
    obtain ⟨hv, _, _, rfl⟩ := carryWrite_next h
    rw [writeCompletes_device, closeTransaction_device, deliverFrame_device, hst, hlate, hv]
    exact deviceTakes_of_certain w p _ _ hnv
  refine ⟨fun hi => ?_, fun hi => ?_⟩
  · rcases hi with hi | hi | hi
    · exact device (w := .v8) (p := false) hi
    · exact device (w := .v10) (p := false) hi
    · exact device (w := .v12) (p := false) hi
  · rcases hi with hi | hi | hi
    · rw [device (w := .v8) (p := true) hi]; exact ⟨rfl, rfl⟩
    · rw [device (w := .v10) (p := true) hi]; exact ⟨rfl, rfl⟩
    · rw [device (w := .v12) (p := true) hi]; exact ⟨rfl, rfl⟩

/-- Settles O24: the device's events present no instruction, and change the device only. -/
theorem deviceStoresAndRestores : Obligations.DeviceStoresAndRestores := by
  intro s rest
  refine ⟨fun x hin hnv => ?_, fun hin hnv => ⟨s.draws + 4, ?_⟩⟩
  · rw [step_of_environment hin rfl]
    simp [environment, latch, deviceStores, hnv]
  · rw [step_of_environment hin rfl]
    simp [environment, latch, devicePowers, hnv]

/-! ## Status answers -/

/-- Settles O25: STATUS_READ takes the record of the frame. -/
theorem statusReadDeliversTheRecord : Obligations.StatusReadDeliversTheRecord := by
  intro s s0 s1 s2 s3 s4 s5 hq
  refine ⟨fun hv => ⟨_, ?_, narrowDecodeZeroExtends s0 s1 s2 s3⟩,
    fun hv => ⟨_, ?_, wideDecodeIsBigEndian s0 s1 s2 s3 s4 s5⟩⟩
  · rw [exec_statusN_of_v8 hv, takeStatus_of_srRead hq]; rfl
  · rw [exec_statusW_of_wide hv, takeStatus_of_srRead hq]; rfl

/-- Settles O26: the poll loop looks at bit 7 of the first byte, which says whether the byte is 128 or more. -/
theorem pollLooksAtReadyBitOnly : Obligations.PollLooksAtReadyBitOnly := by
  intro s s0 s1 s2 s3 s4 s5 hq
  have hnext : (if 128 ≤ s0.toNat then Seq.pollingReady else .transactionSent) =
      if rdy s0 then .pollingReady else .transactionSent := by
    simp only [rdy_eq_decide, decide_eq_true_eq]
  dsimp only
  rw [hnext]
  refine ⟨fun hv => ?_, fun hv => ?_⟩
  · rw [exec_statusN_of_v8 hv, takeStatus_of_pollRead hq]; rfl
  · rw [exec_statusW_of_wide hv, takeStatus_of_pollRead hq]; rfl

/-- Settles O27: the narrow record's non-volatile half is bytes 2 and 3. -/
theorem condPersistComparesNarrow : Obligations.CondPersistComparesNarrow := by
  intro s s0 s1 s2 s3 hq hv
  dsimp only
  rw [exec_statusN_of_v8 hv]
  refine takeStatus_compares hq _ _ ?_
  obtain ⟨_, _, hcfg, hval⟩ := narrowDecodeZeroExtends s0 s1 s2 s3
  rw [storedMatches_iff, hcfg, hval]

/-- Settles O28: the wide record's non-volatile half is bytes 3, 4 and 5. -/
theorem condPersistComparesWide : Obligations.CondPersistComparesWide := by
  intro s s0 s1 s2 s3 s4 s5 hq hv
  dsimp only
  rw [exec_statusW_of_wide hv]
  refine takeStatus_compares hq _ _ ?_
  obtain ⟨_, _, hcfg, hval⟩ := wideDecodeIsBigEndian s0 s1 s2 s3 s4 s5
  rw [storedMatches_iff, hcfg, hval]

/-! ## The block's own steps -/

/-- Settles O29: the block's own step in TRANSACTION_SENT is the timeout test on the next sample. -/
theorem timeoutIsTestedBeforeEveryPoll : Obligations.TimeoutIsTestedBeforeEveryPoll := by
  intro s now later hq hin hclock
  dsimp only
  rw [step_of_nil hin, ownStep_of_transactionSent hq, ← statusLen_eq_ite, ← clockNow_of_cons hclock]
  have hout := timedOut_of_cons hclock
  refine ⟨fun h => ?_, fun h => ?_⟩
  · rw [timeoutTest_of_timedOut (by rw [hout, decide_eq_true h]), afterClock, hclock]; rfl
  · rw [timeoutTest_of_not_timedOut (by rw [hout, decide_eq_false (by omega)]), afterClock, hclock]; rfl

/-- Settles O30: on a counter of `w` bits the sample is `start + duration` and the difference `duration`. -/
theorem elapsedTimeSurvivesWrap : Obligations.ElapsedTimeSurvivesWrap := by
  intro w start duration h
  have hmod (n : Nat) : BitVec.ofNat w (n % 2 ^ w) = BitVec.ofNat w n :=
    BitVec.eq_of_toNat_eq (by rw [BitVec.toNat_ofNat, BitVec.toNat_ofNat, Nat.mod_mod])
  rw [elapsed, hmod, hmod, BitVec.ofNat_add, BitVec.add_comm, BitVec.add_sub_cancel, BitVec.toNat_ofNat,
    Nat.mod_eq_of_lt h]

/-- Settles O31: the block's own step in each of the three states. -/
theorem operationEndsWithOneResult : Obligations.OperationEndsWithOneResult := by
  intro s hin
  rw [step_of_nil hin]
  refine ⟨fun hq => by rw [ownStep_of_pollEnd hq], fun hq hop => ?_, fun hq hop => ⟨_, ?_, toNat_statusWord _⟩⟩
  · rw [ownStep_of_done hq, respond, if_neg hop]
  · rw [ownStep_of_done hq, respond, if_pos hop]

/-- Settles O32: with nothing to come the step is the block's own, and a waiting block has none. -/
theorem waitingChangesNothing : Obligations.WaitingChangesNothing := by
  intro s hin hq
  rw [step_of_nil hin, ownStep_of_waiting hq]

/-! ## The step -/

/-- Settles O33: the fetch decodes what the event presents; a status frame in IDLE is dropped on both sides. -/
theorem stepRunsTheDecodedInstruction : Obligations.StepRunsTheDecodedInstruction := by
  intro s rest i
  refine ⟨fun w hin hd => step_request hin hd, fun w hin hd => ?_, fun f hin hd => ?_, fun frame hin hd => ?_,
    fun st addr frame hin ho hd => step_writeDone hin ho hd⟩
  · exact step_of_decoded hin (congrArg some hd)
  · exact step_of_decoded hin (congrArg some hd)
  · by_cases hq : s.seq = .idle
    · rw [step_readDone_of_idle hin hq]
      exact (exec_status_of_idle hd (s := { s with inbox := rest }) rfl hq).symm
    · exact step_readDone hin hq hd

/-- Settles O34: below 2^30 the op field is 00, which is no request. -/
theorem noOperationHasNoStep : Obligations.NoOperationHasNoStep := by
  intro s w rest hin hw
  obtain ⟨_, _, _, hnone⟩ := requestWordIgnoresReservedBits s.cfg w
  rw [step_of_rejected hin (congrArg some (hnone.mp (by omega)))]
  rfl

/-- Settles O35: in IDLE a status presents nothing and ends the oldest abandoned write; a frame is dropped. -/
theorem lateAnswersAreDroppedInIdle : Obligations.LateAnswersAreDroppedInIdle := by
  intro s rest hq ho
  have hstep (st : Byte) (hin : s.inbox = .writeDone st :: rest) :
      step s = .next (endLateWrite (st == 0#8) { s with inbox := rest, twStatus := st }) := by
    rw [step_writeDone_of_unawaited hin (by simp [ho]), environment]
    exact if_pos hq
  refine ⟨fun st hin hlate => ?_, fun st w ws hin hlate => ?_, fun frame hin => step_readDone_of_idle hin hq⟩
  · rw [hstep st hin]
    exact congrArg _ (endLateWrite_of_nil hlate)
  · rw [hstep st hin]
    exact congrArg _ (endLateWrite_of_cons hlate)

/-- Settles O36: each stop by the check that raises it. -/
theorem refusalsAreTheseByName : Obligations.RefusalsAreTheseByName := by
  refine ⟨fun s i hf => ?_, fun s i hp hf hno => ?_, fun s frame rest hin hq hlen => ?_,
    fun s frame rest hin hlen hq => ?_, fun s st rest hin hq ho => ?_, fun s c rest hin hc => ?_⟩
  · cases i <;> simp only [Instr.fits] at hf
    case statusRead | execute | condPersist => cases hf
    case encode8 | encode10 | encode12 | decodeN | decodeW =>
      exact if_neg (by rw [hf]; decide)
    case statusN => exact if_neg (by simpa using hf)
    case statusW => exact if_pos (by simpa using hf)
    all_goals exact if_pos (by simpa using hf)
  · obtain ⟨p, ref, gain, value, rfl⟩ := exists_frameInstr hp hf
    rw [exec_frameInstr, carryWrite, if_neg (not_not.mpr rfl), if_neg (by tauto)]
  · refine step_of_rejected (r := .frameLength) hin ?_
    exact (fetch_readDone (s := { s with inbox := rest }) frame hq).trans
      (congrArg some (decodeStatus_of_length_ne hlen))
  · obtain ⟨i, d, hd, _, hexec⟩ := exists_decode_status hlen
    rw [step_readDone hin (by rintro h0; simp [h0] at hq) hd]
    have hstop := takeStatus_of_unawaited (s := { s with inbox := rest }) hq frame d
    exact (hexec { s with inbox := rest } rfl).trans hstop
  · rw [step_writeDone_of_unawaited hin ho, environment]
    exact if_neg hq
  · rw [step_of_environment hin rfl, environment]
    refine if_neg fun hwf => ?_
    obtain ⟨hcmd, hclock⟩ := cfg_wf_iff.mp hwf
    rcases hc with hc | hc
    · exact hcmd hc
    · omega

/-! ## Reset -/

/-- Settles O37: the fields of the reset state. -/
theorem resetLeavesIdleAndSilent : Obligations.ResetLeavesIdleAndSilent := ⟨rfl, rfl, rfl, rfl⟩

/-- Settles O38: construction keeps an outstanding write as an abandoned one, and nothing else. -/
theorem resetAbandonsTheOperation : Obligations.ResetAbandonsTheOperation := by
  intro s c rest hin hc
  have hstep : step s = .next (construct c { s with inbox := rest }) := by
    rw [step_of_environment hin rfl, environment, if_pos hc]
    rfl
  refine ⟨_, hstep, rfl, rfl, rfl, rfl, rfl, rfl, rfl, rfl, fun addr frame ho => ?_, fun hno => ?_⟩
  · rw [construct_lateWrites, abandonedWrite, ho]
  · have hnone : abandonedWrite { s with inbox := rest } = [] := by
      unfold abandonedWrite
      split
      · rename_i addr frame ho
        exact absurd ho (hno addr frame)
      · rfl
      · rfl
    rw [construct_lateWrites, hnone, List.append_nil]

/-- Settles O39: reset is idle, with nothing outstanding and nothing observed. -/
theorem invariantHoldsAtReset : Obligations.InvariantHoldsAtReset :=
  ⟨⟨rfl, Nat.two_pow_pos 32, rfl, trivial⟩, ⟨rfl, rfl⟩, trivial⟩

end

namespace Sys2Proof.Machine

open Sys2Proof.Safety

/-! ## Permitted events have a step -/

/-- The instructions of the host's ports have a step wherever the variant has them (R90, R130). -/
theorem exists_exec_of_hostPort {i : Instr} {s : State} (hp : i.port ≠ .command ∧ i.port ≠ .status)
    (hf : i.fits s.cfg.variant = true) : ∃ t, exec i s = .next t := by
  have accepted (f : State → State) : ∃ t, whenIdle f s = .next t := by
    by_cases hq : s.seq = .idle
    · exact ⟨_, whenIdle_of_idle hq⟩
    · exact ⟨_, whenIdle_of_busy hq⟩
  cases i <;> simp only [Instr.port, ne_eq, not_true_eq_false, false_and, and_false] at hp
  case statusRead => rw [exec, execStatusRead]; exact accepted _
  case execute => rw [exec, execExecute]; exact accepted _
  case condPersist => rw [exec, execCondPersist]; exact accepted _
  case encode8 | encode10 | encode12 | decodeN | decodeW => exact ⟨_, onPort_of_fits hf _ s⟩

/-- A request word is a request, which every variant has, or none at all (R89, R92). -/
theorem decode_request_cases (c : Cfg) (w : BitVec 32) :
    (∃ i, decode c .request (bytes32 w) = .ok i ∧ i.fits c.variant = true) ∨
      decode c .request (bytes32 w) = .error .noOperation := by
  rw [decode_request_bytes32, decodeRequest]
  rcases op_cases (w.extractLsb' 30 2) with h | h | h | h <;> simp [h, Instr.fits]

/-- The encoder's port has 30 bits, and any of them are operands (R90, R127). -/
theorem exists_decode_encodePort (c : Cfg) (w : BitVec 30) :
    ∃ i, decode c .encodePort (bytes32 (w.setWidth 32)) = .ok i ∧ i.fits c.variant = true := by
  have htop : (w.setWidth 32).extractLsb' 30 2 = 0#2 := by
    have hw := w.isLt
    refine BitVec.eq_of_toNat_eq ?_
    rw [BitVec.extractLsb'_toNat, BitVec.toNat_setWidth, Nat.shiftRight_eq_div_pow, BitVec.toNat_zero]
    omega
  rw [decode_encodePort_bytes32, decodeEncodePort, if_neg (not_not.mpr htop)]
  cases hv : c.variant <;> exact ⟨_, rfl, rfl⟩

/-- Any frame on the decoder's port decodes (R112). -/
theorem exists_decode_decodePort (c : Cfg) (f : BitVec 48) :
    ∃ i, decode c .decodePort (bytes48 f) = .ok i ∧ i.fits c.variant = true := by
  simp only [decode, bytes48, decodeDecodePort]
  cases hv : c.variant <;> exact ⟨_, rfl, rfl⟩

/-- The completion of the write that the invariant knows to be outstanding (R133). -/
theorem step_writeDone_of_blockInv {s : State} (hi : BlockInv s) (hq : s.seq = .wrPend) {st : Byte}
    {rest : List Event} (hin : s.inbox = .writeDone st :: rest) :
    ∃ dev n, step s = .next { s with
      inbox := rest
      twStatus := st
      res := { s.res with ok := decide (st.toNat = 0) }
      seq := if st.toNat = 0 ∧ s.req.persist = true then .transactionSent else .done
      outstanding := none
      trace := .twRsp st :: s.trace
      device := dev
      draws := n } := by
  have ho := hi.outstandingIs
  rw [expectedTransaction, hq, commandFrame_eq_encode] at ho
  rw [step_writeDone hin ho (decode_encode_frameInstr hi.cfgAdmitted (toNat_truncate_le _ _) ..)]
  exact writeCompletionFollowsStatus { s with inbox := rest, twStatus := st } _ (frameInstr_port ..)
    (frameInstr_fits ..) hq ho

theorem exists_takeStatus_of_awaiting {s : State} (hq : s.seq = .srRead ∨ s.seq = .cpRead ∨ s.seq = .pollRead)
    (f : List Byte) (d : DeviceStatus) : ∃ t, takeStatus f d s = .next t := by
  rcases hq with hq | hq | hq
  · exact ⟨_, takeStatus_of_srRead hq f d⟩
  · exact ⟨_, takeStatus_of_cpRead hq f d⟩
  · exact ⟨_, takeStatus_of_pollRead hq f d⟩

end Sys2Proof.Machine

section

open Sys2Proof Sys2Proof.Machine Sys2Proof.Safety

/-- Settles O43, event by event: what an event presents decodes and has a step, or it needs none. -/
theorem permittedEventsNeverStop : Obligations.PermittedEventsNeverStop := by
  intro s hi hpermitted
  cases hin : s.inbox with
  | nil => exact ⟨_, step_of_nil hin⟩
  | cons e rest =>
    have hp := hpermitted e rest hin
    cases e with
    | request w =>
      rcases decode_request_cases s.cfg w with ⟨i, hd, hf⟩ | hnone
      · rw [step_request hin hd]
        exact exists_exec_of_hostPort (by rw [decode_port hd]; decide) hf
      · exact ⟨_, step_of_rejected hin (congrArg some hnone)⟩
    | encodePort w =>
      obtain ⟨i, hd, hf⟩ := exists_decode_encodePort s.cfg w
      rw [step_of_decoded hin (congrArg some hd)]
      exact exists_exec_of_hostPort (by rw [decode_port hd]; decide) hf
    | decodePort f =>
      obtain ⟨i, hd, hf⟩ := exists_decode_decodePort s.cfg f
      rw [step_of_decoded hin (congrArg some hd)]
      exact exists_exec_of_hostPort (by rw [decode_port hd]; decide) hf
    | writeDone st =>
      rcases hp with hq | hq
      · obtain ⟨_, _, h⟩ := step_writeDone_of_blockInv hi hq hin
        exact ⟨_, h⟩
      · rw [step_writeDone_of_unawaited hin (by simp [hi.outstanding_eq_none (.inl hq)]), environment]
        exact ⟨_, if_pos hq⟩
    | readDone frame =>
      rcases hp with hq | ⟨hlen, hq⟩
      · exact ⟨_, step_readDone_of_idle hin hq⟩
      · obtain ⟨i, d, hd, _, hexec⟩ := exists_decode_status hlen
        rw [step_readDone hin (by rintro h0; simp [h0] at hq) hd, hexec { s with inbox := rest } rfl]
        exact exists_takeStatus_of_awaiting (s := { s with inbox := rest }) hq frame d
    | reset c =>
      rw [step_of_environment hin rfl, environment]
      exact ⟨_, if_pos hp⟩
    | tick | nvWriteEnds | devicePowerCycle | lateWriteEnds => exact ⟨_, step_of_environment hin rfl⟩

end

namespace Sys2Proof.Machine

open Sys2Proof.Safety

/-! ## Whole operations -/

theorem run_succ_of_step {s t : State} (h : step s = .next t) (k : Nat) :
    Host.Core.run Sys2Proof.core (k + 1) s = Host.Core.run Sys2Proof.core k t := by
  simp only [Host.Core.run, Host.Check.core_step, h]

theorem run_two_of_steps {s t u : State} (h : step s = .next t) (h' : step t = .next u) :
    Host.Core.run Sys2Proof.core 2 s = .next u :=
  (run_succ_of_step h 1).trans (run_succ_of_step h' 0)

/-- A run goes on from where a shorter one ends. -/
theorem run_add_of_run {m : Nat} {s t : State} (h : Host.Core.run Sys2Proof.core m s = .next t) (k : Nat) :
    Host.Core.run Sys2Proof.core (m + k) s = Host.Core.run Sys2Proof.core k t := by
  induction m generalizing s with
  | zero =>
    cases h
    rw [Nat.zero_add]
  | succ m ih =>
    rw [Nat.succ_add]
    simp only [Host.Core.run] at h ⊢
    split at h
    · exact ih h
    · cases h
    · cases h

theorem counts_append (a b : List Obs) : counts (a ++ b) = counts a + counts b := by
  simp [counts, List.countP_append]

/-- The step out of DONE, when the block gets its turn (R136). -/
theorem step_tick_of_done {s : State} {rest : List Event} (hin : s.inbox = .tick :: rest) (hq : s.seq = .done) :
    step s = .next (respond { s with inbox := rest }) := by
  rw [step_tick hin, ownStep_of_done (s := { s with inbox := rest }) hq]

/-- The answer that shows COND_PERSIST its request stored already ends the operation (R139). -/
theorem step_matching {s : State} {frame : List Byte} {rest : List Event} {i : Instr} {d : DeviceStatus}
    (hq : s.seq = .cpRead) (hin : s.inbox = .readDone frame :: rest) (hd : decode s.cfg .status frame = .ok i)
    (hexec : ∀ s' : State, s'.cfg = s.cfg → exec i s' = takeStatus frame d s')
    (hmatch : storedMatches d s.req = true) :
    step s = .next (setOk true .done (setStatus d (closeTransaction (.trRsp frame) { s with inbox := rest }))) := by
  rw [step_readDone hin (by simp [hq]) hd, hexec { s with inbox := rest } rfl,
    takeStatus_of_cpRead (s := { s with inbox := rest }) hq]
  exact congrArg _ (if_pos hmatch)

/-- What an operation has reached after some steps from `s`: the point in the sequence, what is left of the
environment's lists, what stays as it was, and what it has shown. -/
structure Reached (s : State) (q : Seq) (rest : List Event) (later : List Nat) (n : Nat × Nat × Nat) (t : State) :
    Prop where
  seq : t.seq = q
  outstanding : t.outstanding = none
  inbox : t.inbox = rest
  clockIn : t.clockIn = later
  cfg : t.cfg = s.cfg
  added : ∃ new, t.trace = new ++ s.trace ∧ counts new = n

/-- The first two steps of EXECUTE: acceptance, and the completion of its write (R132, R133). -/
theorem run_execute {s : State} {w : BitVec 32} {p : Bool} {ref : Ref} {g : Byte} {v : Value} {st : Byte}
    {rest : List Event} (hi : BlockInv s) (hq : s.seq = .idle)
    (hd : decode s.cfg .request (bytes32 w) = .ok (.execute p ref g v))
    (hin : s.inbox = .request w :: .writeDone st :: rest) :
    ∃ t, Host.Core.run Sys2Proof.core 2 s = .next t ∧
      Reached s (if st.toNat = 0 ∧ p = true then .transactionSent else .done) rest s.clockIn.tail (1, 0, 1) t ∧
      t.req.op ≠ .statusRead ∧ t.res.ok = decide (st.toNat = 0) ∧ t.t0 = clockNow s := by
  have hstep := (step_request hin hd).trans
    (exec_execute_of_idle (s := { s with inbox := .writeDone st :: rest }) hq p ref g v)
  obtain ⟨_, _, hwrite⟩ := step_writeDone_of_blockInv (blockInv_step hi hstep) rfl rfl
  refine ⟨_, run_two_of_steps hstep hwrite, ⟨rfl, rfl, rfl, rfl, rfl, ?_⟩,
    nofun, rfl, rfl⟩
  exact ⟨[_, _, _, _], rfl, rfl⟩

/-- The last step of a write operation gives its result, with no record (R136). -/
theorem run_respond {s t : State} {k : Nat} {rest : List Event} {later : List Nat} {n : Nat × Nat × Nat}
    (hrun : Host.Core.run Sys2Proof.core k s = .next t) (ht : Reached s .done (.tick :: rest) later n t)
    (hop : t.req.op ≠ .statusRead) :
    ∃ u new, Host.Core.run Sys2Proof.core (k + 1) s = .next u ∧ u.seq = .idle ∧ u.outstanding = none ∧
      u.inbox = rest ∧ u.clockIn = later ∧ u.trace = .hostRsp t.res.ok none :: new ++ s.trace ∧ counts new = n := by
  obtain ⟨new, htrace, hcounts⟩ := ht.added
  refine ⟨_, new, (run_add_of_run hrun 1).trans (run_succ_of_step (step_tick_of_done ht.inbox ht.seq) 0), rfl,
    ht.outstanding, rfl, ht.clockIn, ?_, hcounts⟩
  simp [respond, hop, htrace]

end Sys2Proof.Machine

section

open Sys2Proof Sys2Proof.Machine Sys2Proof.Safety

/-- Settles O50: where no poll follows, the write's completion leads to DONE. -/
theorem writeWithoutPollTakesThreeSteps : Obligations.WriteWithoutPollTakesThreeSteps := by
  intro s w p ref g v st rest hi hq hd hno hin
  have hzero : st.toNat = 0 ↔ st = 0#8 := BitVec.toNat_inj (y := 0#8)
  obtain ⟨t, hrun, ht, hop, hok, _⟩ := run_execute hi hq hd hin
  rw [if_neg (by rw [hzero]; rcases hno with h | h <;> simp [h])] at ht
  obtain ⟨u, new, hrun', hseq, hout, hin', _, htrace, hcounts⟩ := run_respond hrun ht hop
  rw [hok] at htrace
  simp only [hzero] at htrace
  exact ⟨u, new, hrun', hseq, hout, hin', htrace, hcounts⟩

/-- Settles O51: the answer of the read matches, so that the operation ends at once. -/
theorem matchingCondPersistWritesNothing : Obligations.MatchingCondPersistWritesNothing := by
  intro s w ref g v frame rest d _ hq hd hframe href hgain hval hin
  have hstatus : ∃ i, decode s.cfg .status frame = .ok i ∧
      ∀ s' : State, s'.cfg = s.cfg → exec i s' = takeStatus frame d s' := by
    rcases hframe with ⟨a, b, c, e, rfl, hv, rfl⟩ | ⟨a, b, c, e, f, h, rfl, hv, rfl⟩
    · exact ⟨_, decode_status_narrow hv .., fun s' hs => exec_statusN_of_v8 (hs ▸ hv) ..⟩
    · have hwide : s.cfg.variant = .v10 ∨ s.cfg.variant = .v12 := by
        cases hvar : s.cfg.variant <;> simp_all
      exact ⟨_, decode_status_wide hwide .., fun s' hs => exec_statusW_of_wide (hs ▸ hwide) ..⟩
  obtain ⟨i, hdf, hexec⟩ := hstatus
  have hmatch : storedMatches d ⟨.condPersist, ref, nz g, v, true⟩ = true := by
    rw [storedMatches_iff, nz_eq_true_iff, hval]
    exact ⟨href, hgain, rfl⟩
  have hstep := (step_request hin hd).trans
    (exec_condPersist_of_idle (s := { s with inbox := .readDone frame :: .tick :: rest }) hq ref g v)
  have hrun := run_two_of_steps hstep (step_matching rfl rfl hdf hexec hmatch)
  obtain ⟨u, new, hrun', hseq, hout, hin', _, htrace, hcounts⟩ :=
    run_respond (n := (0, 1, 0)) hrun ⟨rfl, rfl, rfl, rfl, rfl, [_, _, _], rfl, rfl⟩ nofun
  exact ⟨u, new, hrun', hseq, hout, hin', htrace, hcounts⟩

end

namespace Sys2Proof.Machine

open Sys2Proof.Safety

/-! ## The poll loop -/

/-- The registers that a poll loop leaves as they are: the latches, RES.OK and T0 (R135). -/
structure KeepsResult (s t : State) : Prop where
  req : t.req = s.req
  ok : t.res.ok = s.res.ok
  t0 : t.t0 = s.t0

theorem KeepsResult.trans {s t u : State} (h : KeepsResult s t) (h' : KeepsResult t u) : KeepsResult s u :=
  ⟨h'.req.trans h.req, h'.ok.trans h.ok, h'.t0.trans h.t0⟩

theorem Reached.trans {s t u : State} {q q' : Seq} {rest rest' : List Event} {later later' : List Nat}
    {n n' : Nat × Nat × Nat} (h : Reached s q rest later n t) (h' : Reached t q' rest' later' n' u) :
    Reached s q' rest' later' (n + n') u := by
  obtain ⟨new, htrace, hcounts⟩ := h.added
  obtain ⟨new', htrace', hcounts'⟩ := h'.added
  exact ⟨h'.seq, h'.outstanding, h'.inbox, h'.clockIn, h'.cfg.trans h.cfg, new' ++ new, by simp [htrace', htrace],
    by rw [counts_append, hcounts, hcounts', add_comm]⟩

theorem step_test_timesOut {s : State} {rest : List Event} (hin : s.inbox = .tick :: rest)
    (hq : s.seq = .transactionSent) (htest : timedOut s.cfg.clockW (clockNow s) s.t0 = true) :
    step s = .next { afterClock { s with inbox := rest } with seq := .pollingTimedOut } := by
  rw [step_tick hin]
  exact congrArg _ ((ownStep_of_transactionSent (s := { s with inbox := rest }) hq).trans
    (timeoutTest_of_timedOut (s := { s with inbox := rest }) htest))

theorem step_test_polls {s : State} {rest : List Event} (hin : s.inbox = .tick :: rest)
    (hq : s.seq = .transactionSent) (htest : timedOut s.cfg.clockW (clockNow s) s.t0 = false) :
    step s = .next (issueRead .pollRead (afterClock { s with inbox := rest })) := by
  rw [step_tick hin]
  exact congrArg _ ((ownStep_of_transactionSent (s := { s with inbox := rest }) hq).trans
    (timeoutTest_of_not_timedOut (s := { s with inbox := rest }) htest))

theorem step_pollEnd {s : State} {rest : List Event} (hin : s.inbox = .tick :: rest)
    (hq : s.seq = .pollingReady ∨ s.seq = .pollingTimedOut) :
    step s = .next { s with inbox := rest, seq := .done } := by
  rw [step_tick hin, ownStep_of_pollEnd (s := { s with inbox := rest }) hq]

/-- The answer of a poll: the ready bit of its first byte decides (R135). -/
theorem step_polled {s : State} {frame : List Byte} {rest : List Event} {ready : Bool} (hq : s.seq = .pollRead)
    (hin : s.inbox = .readDone frame :: rest) (hframe : answersReady s.cfg.variant ready frame) :
    ∃ d, step s = .next { setStatus d (closeTransaction (.trRsp frame) { s with inbox := rest }) with
      seq := if ready then .pollingReady else .transactionSent } := by
  obtain ⟨hlen, b, bs, rfl, hready⟩ := hframe
  obtain ⟨i, d, hd, hhead, hexec⟩ := exists_decode_status hlen
  have hrdy : rdy d.vcfg = ready := by
    rw [← hready, rdy_eq_decide, ← Option.some.inj hhead]
  refine ⟨d, ?_⟩
  rw [step_readDone hin (by simp [hq]) hd, hexec { s with inbox := rest } rfl,
    takeStatus_of_pollRead (s := { s with inbox := rest }) hq, hrdy]

/-- One poll before 100 ms have passed: the test lets it go out, and its answer decides (R134, R135). -/
theorem run_poll {s : State} {time : Nat} {later : List Nat} {frame : List Byte} {rest : List Event} {ready : Bool}
    (hq : s.seq = .transactionSent) (hin : s.inbox = .tick :: .readDone frame :: rest)
    (hclock : s.clockIn = time :: later) (htime : msSince s.cfg.clockW s.t0 time < 100)
    (hframe : answersReady s.cfg.variant ready frame) :
    ∃ t, Host.Core.run Sys2Proof.core 2 s = .next t ∧
      Reached s (if ready then .pollingReady else .transactionSent) rest later (0, 1, 1) t ∧ KeepsResult s t := by
  have htest := timedOut_of_cons hclock
  rw [decide_eq_false (by omega)] at htest
  have hpoll := step_test_polls hin hq htest
  obtain ⟨d, hanswer⟩ := step_polled
    (s := issueRead .pollRead (afterClock { s with inbox := .readDone frame :: rest })) rfl rfl hframe
  exact ⟨_, run_two_of_steps hpoll hanswer, ⟨rfl, rfl, rfl, by simp [hclock], rfl, [_, _, _], rfl, rfl⟩, rfl, rfl, rfl⟩

/-- Any number of busy polls before 100 ms have passed: the loop is where it was (R134, R135). -/
theorem run_busy_polls {frames : List (List Byte)} {times : List Nat} {s : State} {later : List Nat}
    {rest : List Event} (hq : s.seq = .transactionSent) (hout : s.outstanding = none)
    (hin : s.inbox = pollScript frames ++ rest) (hclock : s.clockIn = times ++ later)
    (hlen : times.length = frames.length) (htimes : ∀ t ∈ times, msSince s.cfg.clockW s.t0 t < 100)
    (hframes : ∀ f ∈ frames, answersReady s.cfg.variant false f) :
    ∃ t, Host.Core.run Sys2Proof.core (2 * frames.length) s = .next t ∧
      Reached s .transactionSent rest later (0, frames.length, frames.length) t ∧ KeepsResult s t := by
  induction frames generalizing times s with
  | nil =>
    obtain rfl := List.length_eq_zero_iff.mp hlen
    exact ⟨s, rfl, ⟨hq, hout, hin, hclock, rfl, [], rfl, rfl⟩, rfl, rfl, rfl⟩
  | cons f fs ih =>
    obtain ⟨time, ts, rfl⟩ := List.exists_cons_of_length_eq_add_one hlen
    obtain ⟨t, hrun, ht, hkeep⟩ := run_poll hq hin hclock (htimes time (by simp)) (hframes f (by simp))
    obtain ⟨u, hrun', hu, hkeep'⟩ := ih ht.seq ht.outstanding ht.inbox ht.clockIn (by simpa using hlen)
      (by rw [ht.cfg, hkeep.t0]; exact fun t h => htimes t (by simp [h]))
      (by rw [ht.cfg]; exact fun f h => hframes f (by simp [h]))
    rw [List.length_cons, Nat.mul_succ, Nat.add_comm (2 * _), Nat.add_comm fs.length]
    exact ⟨u, (run_add_of_run hrun _).trans hrun', ht.trans hu, hkeep.trans hkeep'⟩

theorem pollScript_append (as bs : List (List Byte)) : pollScript (as ++ bs) = pollScript as ++ pollScript bs := by
  induction as with
  | nil => rfl
  | cons a as ih => simp [pollScript, ih]

theorem msSince_mod (w t0 t : Nat) : msSince w (t0 % 2 ^ w) t = msSince w t0 t := by
  rw [msSince, msSince, Nat.mod_mod]

/-- A persisting EXECUTE whose write succeeds is in the poll loop after its two steps, with T0 the first sample, and
there it stays for any number of busy polls (R132 to R135). -/
theorem run_execute_then_busy_polls {s : State} {w : BitVec 32} {ref : Ref} {g : Byte} {v : Value} {start : Nat}
    {times later : List Nat} {frames : List (List Byte)} {rest : List Event} (hi : BlockInv s) (hq : s.seq = .idle)
    (hd : decode s.cfg .request (bytes32 w) = .ok (.execute true ref g v))
    (hin : s.inbox = .request w :: .writeDone 0#8 :: (pollScript frames ++ rest))
    (hclock : s.clockIn = start :: (times ++ later)) (hlen : times.length = frames.length)
    (htimes : ∀ t ∈ times, msSince s.cfg.clockW start t < 100)
    (hframes : ∀ f ∈ frames, answersReady s.cfg.variant false f) :
    ∃ t, Host.Core.run Sys2Proof.core (2 * frames.length + 2) s = .next t ∧
      Reached s .transactionSent rest later (1, frames.length, frames.length + 1) t ∧
      t.req.op ≠ .statusRead ∧ t.res.ok = true ∧ ∀ x, msSince s.cfg.clockW t.t0 x = msSince s.cfg.clockW start x := by
  obtain ⟨t, hrun, ht, hop, hok, ht0⟩ := run_execute hi hq hd hin
  rw [hclock] at ht
  rw [clockNow_of_cons hclock] at ht0
  have hstart (x : Nat) : msSince s.cfg.clockW t.t0 x = msSince s.cfg.clockW start x := by rw [ht0, msSince_mod]
  obtain ⟨u, hrun', hu, hkeep⟩ := run_busy_polls ht.seq ht.outstanding ht.inbox ht.clockIn hlen
    (by simpa only [ht.cfg, hstart] using htimes) (by simpa only [ht.cfg] using hframes)
  rw [Nat.add_comm (2 * _), Nat.add_comm frames.length]
  refine ⟨u, (run_add_of_run hrun _).trans hrun', ?_, by rwa [hkeep.req], by rw [hkeep.ok, hok]; rfl,
    fun x => by rw [hkeep.t0, hstart]⟩
  simpa using ht.trans hu

/-- From the end of the poll loop two of the block's own steps give the result (R136). -/
theorem run_pollEnd_respond {s t : State} {k : Nat} {q : Seq} {rest : List Event} {later : List Nat}
    {n : Nat × Nat × Nat} (hrun : Host.Core.run Sys2Proof.core k s = .next t) (hq : q = .pollingReady ∨ q = .pollingTimedOut)
    (ht : Reached s q (.tick :: .tick :: rest) later n t) (hop : t.req.op ≠ .statusRead) :
    ∃ u new, Host.Core.run Sys2Proof.core (k + 2) s = .next u ∧ u.seq = .idle ∧ u.inbox = rest ∧ u.clockIn = later ∧
      u.trace = .hostRsp t.res.ok none :: new ++ s.trace ∧ counts new = n := by
  have hend := step_pollEnd ht.inbox (by rwa [← ht.seq] at hq)
  have hdone : Reached s .done (.tick :: rest) later n { t with inbox := .tick :: rest, seq := .done } :=
    ⟨rfl, ht.outstanding, rfl, ht.clockIn, ht.cfg, ht.added⟩
  obtain ⟨u, new, hrun', hseq, _, hin, hclock, htrace, hcounts⟩ :=
    run_respond ((run_add_of_run hrun 1).trans (run_succ_of_step hend 0)) hdone hop
  exact ⟨u, new, hrun', hseq, hin, hclock, htrace, hcounts⟩

end Sys2Proof.Machine

section

open Sys2Proof Sys2Proof.Machine Sys2Proof.Safety

/-- Settles O52: after the busy polls the test finds 100 ms or more, and RES.OK is what the write made it. -/
theorem persistingWriteTimesOutSilently : Obligations.PersistingWriteTimesOutSilently := by
  intro s w ref g v start last times later frames rest hi hq hd hframes hlen htimes hlast hclock hin
  simp only [List.cons_append] at hin hclock
  obtain ⟨t, hrun, ht, hop, hok, hstart⟩ := run_execute_then_busy_polls hi hq hd hin hclock hlen htimes hframes
  have htest := timedOut_of_cons ht.clockIn
  rw [ht.cfg, hstart, decide_eq_true hlast, ← ht.cfg] at htest
  have hend := step_test_timesOut ht.inbox ht.seq htest
  have hreached : Reached t .pollingTimedOut (.tick :: .tick :: rest) later (0, 0, 1)
      { afterClock { t with inbox := .tick :: .tick :: rest } with seq := .pollingTimedOut } :=
    ⟨rfl, ht.outstanding, rfl, by simp [ht.clockIn], rfl, [_], rfl, rfl⟩
  obtain ⟨u, new, hrun', hseq, hin', hclock', htrace, hcounts⟩ :=
    run_pollEnd_respond ((run_add_of_run hrun 1).trans (run_succ_of_step hend 0)) (.inr rfl) (ht.trans hreached) hop
  exact ⟨u, new, hrun', hseq, hin', hclock', by rw [htrace, ← hok]; rfl, hcounts⟩

/-- Settles O53: after the busy polls one more goes out, and its answer ends the loop. -/
theorem persistingWriteEndsReady : Obligations.PersistingWriteEndsReady := by
  intro s w ref g v start times later frames final rest hi hq hd hframes hfinal hlen htimes hclock hin
  obtain ⟨busy, last, rfl⟩ : ∃ busy last, times = busy ++ [last] :=
    ⟨_, _, (List.dropLast_append_getLast (List.ne_nil_of_length_pos (by omega))).symm⟩
  simp only [pollScript_append, pollScript, List.cons_append, List.append_assoc, List.nil_append] at hin hclock
  obtain ⟨t, hrun, ht, hop, hok, hstart⟩ := run_execute_then_busy_polls hi hq hd hin hclock (by simpa using hlen)
    (fun x hx => htimes x (by simp [hx])) hframes
  obtain ⟨t', hrun', ht', hkeep⟩ := run_poll ht.seq ht.inbox ht.clockIn
    (by rw [ht.cfg, hstart]; exact htimes last (by simp)) (by rwa [ht.cfg])
  obtain ⟨u, new, hrun'', hseq, hin', hclock', htrace, hcounts⟩ :=
    run_pollEnd_respond ((run_add_of_run hrun 2).trans hrun') (.inl rfl) (ht.trans ht') (by rwa [hkeep.req])
  exact ⟨u, new, hrun'', hseq, hin', hclock', by rw [htrace, hkeep.ok, hok], hcounts⟩

end

namespace Sys2Proof.Machine

open Sys2Proof.Safety

/-! ## The write a reset abandons -/

/-- The settings of an encoded request are read back from its frame (R81 to R88). -/
theorem frameSettings_commandFrame {c : Cfg} (hc : c.wf = true) (ref : Ref) (gain : Bool) (value : Value) (p : Bool) :
    frameSettings c (commandFrame c ref gain value p) =
      some (p, { ref := ref, gain := gain, value := truncate c.variant value }) := by
  have hvalue := extractValue_commandFrame c ref gain value p
  rw [commandFrame_eq_bytes] at hvalue ⊢
  simp only [frameSettings, hvalue, selectorPersists_headerByte (cfg_wf_iff.mp hc).1, frameRef_headerByte,
    frameGain_headerByte]

/-- An EXECUTE of a non-volatile write, its success, and a timeout test at 100 ms. -/
def silentTimeout : State :=
  { State.reset with
    inbox := [.request 0xA0000010#32, .writeDone 0#8, .tick, .tick, .tick]
    clockIn := [0, 100] }

end Sys2Proof.Machine

section

open Sys2Proof Sys2Proof.Machine Sys2Proof.Safety

/-- Settles O54: the run of `silentTimeout`, computed. -/
theorem successDoesNotMeanStored : Obligations.SuccessDoesNotMeanStored :=
  ⟨silentTimeout, _, 5, 0xA0000010#32, 0#2, 0#8, 0x10#16, [.writeDone 0#8, .tick, .tick, .tick],
    [.now 100, .twRsp 0#8, .twReq 0#7 [0x60#8, 0x10#8], .now 0, .hostReq (.execute true 0#2 0#8 0x10#16)],
    ⟨rfl, Nat.two_pow_pos 32, rfl, trivial⟩, rfl, rfl, rfl, rfl, rfl, rfl, rfl, rfl, rfl, rfl, rfl, rfl⟩

/-- Settles O55: the abandoned write holds the frame of the request, whose settings the device takes. -/
theorem abandonedWriteStillReachesTheDevice : Obligations.AbandonedWriteStillReachesTheDevice := by
  intro s c rest hi hq hc hlate hnv hin x
  obtain ⟨t, hreset, hcfg, hseq, hout, htrace, hdev, hin', _, _, hkept, _⟩ :=
    resetAbandonsTheOperation s c _ hin hc
  have hwrite := hi.outstandingIs
  rw [expectedTransaction, hq] at hwrite
  have hlate' := hkept _ _ hwrite
  rw [hlate, List.nil_append] at hlate'
  obtain ⟨_, hlateStep, _⟩ := lateAnswersAreDroppedInIdle t rest hseq hout
  have hstep := hlateStep 0#8 _ _ hin' hlate'
  have htakes : lateTakes { cfg := s.cfg, frame := commandFrame s.cfg s.req.ref s.req.gain s.req.value s.req.persist }
      (0#8 == 0#8) t.draws t.device = if s.req.persist then
        { vol := x, nv := freeSettings s.cfg.variant t.draws, nvWrite := some x } else { s.device with vol := x } := by
    simp only [lateTakes, frameSettings_commandFrame hi.cfgAdmitted, hdev]
    exact deviceTakes_of_certain _ _ _ _ hnv
  rw [htakes] at hstep
  refine ⟨_, run_two_of_steps hreset hstep, hcfg, hseq, hout, rfl, htrace, rfl, ?_, fun hp => ?_, fun hp => ?_⟩
  · cases s.req.persist <;> rfl
  · simp only [hp]; rfl
  · simp only [hp]; rfl

end

namespace Sys2Proof.Safety

open Sys2Proof Sys2Proof.Machine

/-! ## Infinite runs -/

/-- Where a transaction is outstanding the block waits for its answer (R60). -/
theorem BlockInv.waits {s : State} (hi : BlockInv s) (ho : s.outstanding ≠ none) :
    s.seq = .srRead ∨ s.seq = .cpRead ∨ s.seq = .wrPend ∨ s.seq = .pollRead := by
  rw [hi.outstandingIs, expectedTransaction] at ho
  cases hq : s.seq <;> simp [hq] at ho ⊢

/-- A property from which a step can always be taken, and after which the environment can always restore it, holds
along some infinite run. -/
theorem exists_run_of_invariant {P : State → Prop}
    (go : ∀ s, P s → ∃ t events samples, step s = .next t ∧ P (receives t events samples)) {s : State} (hs : P s) :
    ∃ r : Nat → State, r 0 = s ∧ IsRun r ∧ ∀ n, P (r n) := by
  have succ (x : { s // P s }) : ∃ y : { s // P s }, ∃ t events samples,
      step x.1 = .next t ∧ y.1 = receives t events samples := by
    obtain ⟨t, events, samples, hstep, hkeep⟩ := go x.1 x.2
    exact ⟨⟨_, hkeep⟩, t, events, samples, hstep, rfl⟩
  choose next hnext using succ
  refine ⟨fun n => (next^[n] ⟨s, hs⟩).1, rfl, fun n => ?_, fun n => (next^[n] ⟨s, hs⟩).2⟩
  dsimp only
  rw [Function.iterate_succ_apply']
  exact hnext _

/-- A status frame of the variant's length that reports the device busy. -/
def busyFrame (v : Variant) : List Byte := List.replicate (statusLen v) 0#8

theorem answersReady_busyFrame (v : Variant) : answersReady v false (busyFrame v) := by
  cases v <;> exact ⟨rfl, _, _, rfl, rfl⟩

/-- The poll loop of a stalled clock and a device that is always busy: the next sample is T0, the next answer is
busy (R144). -/
structure Stalled (c : Cfg) (start : Nat) (s : State) : Prop where
  cfg : s.cfg = c
  t0 : s.t0 = start
  phase : (s.seq = .transactionSent ∧ s.inbox = [] ∧ s.clockIn = [start]) ∨
    (s.seq = .pollRead ∧ s.inbox = [.readDone (busyFrame c.variant)] ∧ s.clockIn = [])

theorem Stalled.step_test {c : Cfg} {start : Nat} {s : State} (h : Stalled c start s) (hq : s.seq = .transactionSent) :
    step s = .next (issueRead .pollRead (afterClock s)) := by
  rcases h.phase with ⟨_, hin, hclock⟩ | ⟨hq', _⟩
  · have htest := timedOut_of_cons hclock
    rw [h.t0, msSince, Nat.add_sub_cancel_left, Nat.mod_self, decide_eq_false (by decide), ← h.t0] at htest
    rw [step_of_nil hin, ownStep_of_transactionSent hq, timeoutTest_of_not_timedOut htest]
  · rw [hq] at hq'
    cases hq'

theorem Stalled.step_answer {c : Cfg} {start : Nat} {s : State} (h : Stalled c start s) (hq : s.seq = .pollRead) :
    ∃ d, step s = .next { setStatus d (closeTransaction (.trRsp (busyFrame c.variant)) { s with inbox := [] }) with
      seq := .transactionSent } := by
  rcases h.phase with ⟨hq', _⟩ | ⟨_, hin, _⟩
  · rw [hq] at hq'
    cases hq'
  · exact step_polled (ready := false) hq hin (by rw [h.cfg]; exact answersReady_busyFrame c.variant)

/-- The environment keeps the clock at T0 and the device busy. -/
theorem Stalled.goes_on {c : Cfg} {start : Nat} {s : State} (h : Stalled c start s) :
    ∃ t events samples, step s = .next t ∧ Stalled c start (receives t events samples) := by
  rcases h.phase with ⟨hq, hin, hclock⟩ | ⟨hq, hin, hclock⟩
  · exact ⟨_, [.readDone (busyFrame c.variant)], [], h.step_test hq, h.cfg, h.t0,
      .inr ⟨rfl, by simp [hin], by simp [hclock]⟩⟩
  · obtain ⟨d, hstep⟩ := h.step_answer hq
    exact ⟨_, [], [start], hstep, h.cfg, h.t0, .inl ⟨rfl, rfl, by simp [hclock]⟩⟩

/-- The next state of a run is where the step leads. -/
theorem IsRun.seq_succ {r : Nat → State} (hr : IsRun r) {n : Nat} {t : State} (h : step (r n) = .next t) :
    (r (n + 1)).seq = t.seq := by
  obtain ⟨t', events, samples, hstep, hnext⟩ := hr n
  obtain rfl : t = t' := Host.Outcome.next.inj (h.symm.trans hstep)
  rw [hnext, receives_seq]

section

variable {r : Nat → State} {c : Cfg} {start : Nat}

/-- A stalled run tests the time again and again. -/
theorem exists_test_of_stalled (hr : IsRun r) (h : ∀ n, Stalled c start (r n)) (n : Nat) :
    ∃ m, n ≤ m ∧ (r m).seq = .transactionSent := by
  rcases (h n).phase with ⟨hq, _⟩ | ⟨hq, _⟩
  · exact ⟨n, le_rfl, hq⟩
  · obtain ⟨d, hstep⟩ := (h n).step_answer hq
    exact ⟨n + 1, Nat.le_succ n, hr.seq_succ hstep⟩

theorem seq_succ_of_stalled_test (hr : IsRun r) (h : ∀ n, Stalled c start (r n)) {n : Nat}
    (hq : (r n).seq = .transactionSent) : (r (n + 1)).seq = .pollRead :=
  hr.seq_succ ((h n).step_test hq)

theorem Stalled.testNext {s : State} (h : Stalled c start s) (hq : s.seq = .transactionSent) : testNext s := by
  rcases h.phase with ⟨_, hin, _⟩ | ⟨hq', _⟩
  · exact ⟨hq, .inl (by rw [hin]; rfl)⟩
  · rw [hq] at hq'
    cases hq'

theorem Stalled.answerNext {s : State} (h : Stalled c start s) (hq : s.seq = .pollRead) : answerNext s := by
  rcases h.phase with ⟨hq', _⟩ | ⟨_, hin, _⟩
  · rw [hq] at hq'
    cases hq'
  · exact .inr ⟨.inr (.inr hq), _, by rw [hin]; rfl⟩

end

end Sys2Proof.Safety

section

open Sys2Proof Sys2Proof.Machine Sys2Proof.Safety

/-- Settles O57: the environment lists T0 before each test and a busy frame after it, for ever. -/
theorem stalledClockPollsForEver : Obligations.StalledClockPollsForEver := by
  intro s hi hq hin hclock
  have hstart : Stalled s.cfg s.t0 (receives s [] [s.t0]) :=
    ⟨rfl, rfl, .inl ⟨hq, by simp [hin], by simp [hclock]⟩⟩
  obtain ⟨r, hzero, hr, h⟩ := exists_run_of_invariant (fun _ h => h.goes_on) hstart
  have htests := exists_test_of_stalled hr h
  refine ⟨r, hr, ⟨[], [s.t0], hzero⟩, fun n _ => ?_, fun n => ?_, fun n => ⟨?_, (h n).cfg, (h n).t0, fun htest => ?_⟩,
    fun k => ?_⟩
  · obtain ⟨m, hm, hq⟩ := htests n
    exact ⟨m + 1, by omega, (h (m + 1)).answerNext (seq_succ_of_stalled_test hr h hq)⟩
  · obtain ⟨m, hm, hq⟩ := htests n
    exact ⟨m, hm, ((h m).testNext hq).2⟩
  · rcases (h n).phase with ⟨hq, _⟩ | ⟨hq, _⟩
    · exact .inl hq
    · exact .inr hq
  · rcases (h n).phase with ⟨_, _, hclock⟩ | ⟨hq, _⟩
    · rw [clockNow_of_cons hclock, (h n).cfg, Nat.mod_eq_of_lt hi.t0Fits]
    · rw [htest.1] at hq
      cases hq
  · obtain ⟨m, hm, hq⟩ := htests k
    exact ⟨m, hm, (h m).testNext hq, seq_succ_of_stalled_test hr h hq⟩

/-- Settles O58: a waiting block with nothing to come stays as it is, and no answer is ever next. -/
theorem unansweredTransactionWaitsForEver : Obligations.UnansweredTransactionWaitsForEver := by
  intro s hi ho hin
  have hq := hi.waits ho
  have hstep : step s = .next s := by
    rw [step_of_nil hin, ownStep_of_waiting (.inr (by tauto))]
  refine ⟨isRun_const hstep, ?_, fun ⟨htest, _⟩ => ?_, fun hanswers => ?_⟩
  · rintro hidle
    simp [hidle] at hq
  · simp [htest] at hq
  · obtain ⟨_, _, hanswer⟩ := hanswers 0 ho
    simp [answerNext, hin] at hanswer

end

namespace Sys2Proof.Safety

open Sys2Proof Sys2Proof.Machine

/-! ## Every operation ends -/

/-- How far the sequencer is from IDLE; the two states of the poll loop stand on one level (R140). -/
def distance : Seq → Nat
  | .idle => 0
  | .done => 1
  | .pollingReady => 2
  | .pollingTimedOut => 3
  | .transactionSent => 4
  | .pollRead => 4
  | .wrPend => 5
  | .srRead => 6
  | .cpRead => 7

/-- Along the transition table the sequencer comes no farther from IDLE, once it has left it. -/
theorem distance_le_of_seqEdge {q q' : Seq} (h : seqEdge q q' = true) (hq : q ≠ .idle) : distance q' ≤ distance q := by
  cases q <;> cases q' <;> simp_all [seqEdge, distance]

/-- Outside the poll loop a state is known by its distance. -/
theorem eq_of_distance_eq {q q' : Seq} (h : distance q' = distance q)
    (hq : ¬ (q = .transactionSent ∨ q = .pollRead)) : q' = q := by
  cases q <;> cases q' <;> simp_all [distance]

theorem loop_of_distance_eq {q q' : Seq} (h : distance q' = distance q)
    (hq : q = .transactionSent ∨ q = .pollRead) : q' = .transactionSent ∨ q' = .pollRead := by
  rcases hq with rfl | rfl <;> cases q' <;> simp_all [distance]

/-- A step outside IDLE leads to IDLE or no farther from it. -/
theorem distance_step {s t : State} (h : step s = .next t) (hq : s.seq ≠ .idle) :
    t.seq = .idle ∨ distance t.seq ≤ distance s.seq := by
  rcases sequencerFollowsTheTable s t h with heq | hedge | ⟨_, hidle⟩
  · exact .inr (by rw [heq])
  · exact .inr (distance_le_of_seqEdge hedge hq)
  · exact .inl hidle

/-- The block's own step is the next one: a tick, or nothing to come. -/
theorem step_own {s : State} (h : ownStepNext s) : ∃ rest, step s = .next (ownStep { s with inbox := rest }) := by
  rcases h with h | h
  · exact ⟨s.inbox, step_of_nil (List.head?_eq_none_iff.mp h)⟩
  · obtain ⟨rest, hin⟩ := List.head?_eq_some_iff.mp h
    exact ⟨rest, step_tick hin⟩

/-- Where the block does not wait, its own step takes it on (R134, R136). -/
theorem seq_ownStep_ne {s : State}
    (hq : s.seq = .transactionSent ∨ s.seq = .pollingReady ∨ s.seq = .pollingTimedOut ∨ s.seq = .done) :
    (ownStep s).seq ≠ s.seq := by
  rcases ownStep_cases s with ⟨hs, h⟩ | ⟨hs | hs, h⟩ | ⟨hs, h⟩ | ⟨hs, _⟩
  · rcases timeoutTest_cases s with ⟨_, h'⟩ | ⟨_, h'⟩ <;> rw [h, h', hs] <;> exact nofun
  · rw [h, hs]; exact nofun
  · rw [h, hs]; exact nofun
  · rw [h, hs]; exact nofun
  · rcases hq with hq | hq | hq | hq <;> simp [hq] at hs

/-- The answer of a read takes the block on (R131, R135, R139). -/
theorem seq_takeStatus_ne {s t : State} {f : List Byte} {d : DeviceStatus} (hq : s.seq ≠ .idle)
    (h : takeStatus f d s = .next t) : t.seq ≠ s.seq := by
  rcases takeStatus_next h with ⟨hs, rfl⟩ | ⟨hs, rfl⟩ | ⟨hs, rfl⟩ | ⟨hs, _⟩
  · rw [hs]; exact nofun
  · rcases compareStored_cases d (setStatus d (closeTransaction (.trRsp f) s)) with ⟨_, h'⟩ | ⟨_, h'⟩ <;>
      rw [h', hs] <;> exact nofun
  · dsimp only
    rw [hs]
    split <;> exact nofun
  · exact absurd hs hq

/-- Outside IDLE an event that presents no instruction keeps SEQ, unless it is the block's turn or a reset. -/
theorem seq_environment {e : Event} {s t : State} (hq : s.seq ≠ .idle) (h : environment e s = .next t) :
    e = .tick ∨ t.seq = .idle ∨ t.seq = s.seq := by
  cases e with
  | tick => exact .inl rfl
  | writeDone st =>
    rw [environment, if_neg hq] at h
    cases h
  | reset c =>
    rw [environment] at h
    split at h <;> cases h
    exact .inr (.inl rfl)
  | lateWriteEnds =>
    obtain ⟨d, n, l, hl⟩ := endLateWrite_eq false s
    rw [environment, hl] at h
    cases h
    exact .inr (.inr rfl)
  | request | encodePort | decodePort | readDone | nvWriteEnds | devicePowerCycle =>
    cases h
    exact .inr (.inr rfl)

/-- The block's turn comes: its own step takes it on where it does not wait. -/
theorem seq_ne_of_ownStepNext {s t : State} (h : ownStepNext s) (hstep : step s = .next t)
    (hq : s.seq = .transactionSent ∨ s.seq = .pollingReady ∨ s.seq = .pollingTimedOut ∨ s.seq = .done) :
    t.seq ≠ s.seq := by
  obtain ⟨rest, hown⟩ := step_own h
  obtain rfl : t = _ := Host.Outcome.next.inj (hstep.symm.trans hown)
  exact seq_ownStep_ne (s := { s with inbox := rest }) hq

/-- The answer of the outstanding transaction takes the block on (R131, R133, R135, R139). -/
theorem seq_ne_of_answerNext {s t : State} (hi : BlockInv s) (h : answerNext s) (hstep : step s = .next t) :
    t.seq ≠ s.seq := by
  rcases h with ⟨hq, st, hhead⟩ | ⟨hq, frame, hhead⟩ <;> obtain ⟨rest, hin⟩ := List.head?_eq_some_iff.mp hhead
  · obtain ⟨dev, n, hwrite⟩ := step_writeDone_of_blockInv hi hq hin
    obtain rfl : t = _ := Host.Outcome.next.inj (hstep.symm.trans hwrite)
    dsimp only
    rw [hq]
    split <;> exact nofun
  · have hidle : s.seq ≠ .idle := by rintro h0; simp [h0] at hq
    have hlen : frame.length = statusLen s.cfg.variant := by
      by_contra hlen
      obtain ⟨_, _, hstop, _⟩ := refusalsAreTheseByName
      rw [hstop s frame rest hin hidle hlen] at hstep
      cases hstep
    obtain ⟨i, d, hd, _, hexec⟩ := exists_decode_status hlen
    rw [step_readDone hin hidle hd, hexec { s with inbox := rest } rfl] at hstep
    exact seq_takeStatus_ne (s := { s with inbox := rest }) hidle hstep

/-- TRANSACTION_SENT is left only by the timeout test, or by a reset (R140). -/
theorem seq_of_step_transactionSent {s t : State} (hq : s.seq = .transactionSent) (h : step s = .next t) :
    t.seq = .transactionSent ∨ t.seq = .idle ∨ testNext s := by
  rcases step_next h with ⟨hin, _⟩ | ⟨e, rest, hin, hstep⟩
  · exact .inr (.inr ⟨hq, .inl (by rw [hin]; rfl)⟩)
  · obtain ⟨st, hst⟩ := latch_eq e { s with inbox := rest }
    simp only [hst] at hstep
    rcases hstep with ⟨i, _, hx⟩ | ⟨_, rfl⟩ | ⟨_, henv⟩
    · rcases exec_keeps_seq (by simp [hq]) hx with hseq | ⟨_, hs⟩ | ⟨_, hs⟩
      · exact .inl (hseq.trans hq)
      · simp [hq] at hs
      · simp [hq] at hs
    · exact .inl hq
    · rcases seq_environment (by simp [hq]) henv with rfl | hidle | hseq
      · exact .inr (.inr ⟨hq, .inr (by rw [hin]; rfl)⟩)
      · exact .inr (.inl hidle)
      · exact .inl (hseq.trans hq)

/-- A timeout test at 100 ms or more ends the poll loop (R134). -/
theorem seq_of_expiryNext {s t : State} (h : expiryNext s) (hstep : step s = .next t) : t.seq = .pollingTimedOut := by
  obtain ⟨⟨hq, hown⟩, hms⟩ := h
  obtain ⟨rest, hown'⟩ := step_own hown
  have htest : timedOut s.cfg.clockW (clockNow s) s.t0 = true := by
    rw [timedOut, decide_eq_true_iff]
    rwa [← elapsed_eq_msSince, Nat.mod_eq_of_lt (clockNow_lt s)] at hms
  have hend := timeoutTest_of_timedOut (s := { s with inbox := rest }) htest
  rw [ownStep_of_transactionSent (s := { s with inbox := rest }) hq, hend] at hown'
  rw [Host.Outcome.next.inj (hstep.symm.trans hown')]

/-- A ready poll answer ends the poll loop (R135). -/
theorem seq_of_readyNext {s t : State} (h : readyNext s) (hstep : step s = .next t) : t.seq = .pollingReady := by
  obtain ⟨hq, frame, hhead, hframe⟩ := h
  obtain ⟨rest, hin⟩ := List.head?_eq_some_iff.mp hhead
  obtain ⟨d, hpolled⟩ := step_polled hq hin hframe
  rw [Host.Outcome.next.inj (hstep.symm.trans hpolled)]
  rfl

/-! ### Along a run -/

section

variable {r : Nat → State} {n : Nat}

theorem IsRun.exists_step (hr : IsRun r) (m : Nat) : ∃ t, step (r m) = .next t ∧ (r (m + 1)).seq = t.seq := by
  obtain ⟨t, _, _, hstep, _⟩ := hr m
  exact ⟨t, hstep, hr.seq_succ hstep⟩

/-- A run that stays away from IDLE and comes no nearer than it is stays at one distance. -/
theorem distance_eq_of_stuck (hr : IsRun r)
    (hstuck : ∀ m, n ≤ m → (r m).seq ≠ .idle ∧ distance (r n).seq ≤ distance (r m).seq) {m : Nat} (hm : n ≤ m) :
    distance (r m).seq = distance (r n).seq := by
  induction m, hm using Nat.le_induction with
  | base => rfl
  | succ m hm ih =>
    obtain ⟨t, hstep, hseq⟩ := hr.exists_step m
    obtain ⟨hidle, hfar⟩ := hstuck (m + 1) (Nat.le_succ_of_le hm)
    rcases distance_step hstep (hstuck m hm).1 with h | h
    · exact absurd (hseq.trans h) hidle
    · rw [← hseq] at h
      omega

/-- No state outside the poll loop is kept for ever: an answer comes, or the block gets its turn. -/
theorem exists_seq_ne (hr : IsRun r) (hi : ∀ m, BlockInv (r m)) (ha : TransportAnswers r) (ht : BlockGetsTurns r)
    (hq : (r n).seq ≠ .idle) : ∃ m, n ≤ m ∧ (r m).seq ≠ (r n).seq := by
  by_contra hsame
  simp only [not_exists, not_and, not_not] at hsame
  have moves {m : Nat} (hm : n ≤ m) (hne : ∀ t, step (r m) = .next t → t.seq ≠ (r m).seq) : False := by
    obtain ⟨t, hstep, hseq⟩ := hr.exists_step m
    refine hne t hstep ?_
    rw [← hseq, hsame m hm, hsame (m + 1) (Nat.le_succ_of_le hm)]
  by_cases ho : (r n).outstanding = none
  · obtain ⟨m, hm, hown⟩ := ht n
    refine moves hm fun t hstep => seq_ne_of_ownStepNext hown hstep ?_
    rw [hsame m hm]
    rw [(hi n).outstandingIs, expectedTransaction] at ho
    cases hs : (r n).seq <;> simp [hs] at hq ho ⊢
  · obtain ⟨m, hm, hanswer⟩ := ha n ho
    exact moves hm fun t hstep => seq_ne_of_answerNext (hi m) hanswer hstep

/-- Without a timeout test or a reset the block does not leave TRANSACTION_SENT. -/
theorem seq_eq_of_no_testNext (hr : IsRun r) (hloop : ∀ m, n ≤ m → inPollLoop (r m))
    (hno : ∀ m, n ≤ m → ¬ testNext (r m)) (hq : (r n).seq = .transactionSent) {m : Nat} (hm : n ≤ m) :
    (r m).seq = .transactionSent := by
  induction m, hm using Nat.le_induction with
  | base => exact hq
  | succ m hm ih =>
    obtain ⟨t, hstep, hseq⟩ := hr.exists_step m
    rcases seq_of_step_transactionSent ih hstep with h | h | h
    · exact hseq.trans h
    · have hout := hloop (m + 1) (Nat.le_succ_of_le hm)
      rw [inPollLoop, hseq, h] at hout
      simp at hout
    · exact absurd h (hno m hm)

/-- A run that stays in the poll loop tests the time again and again: it cannot stay in either of the loop's two
states. -/
theorem exists_testNext (hr : IsRun r) (hi : ∀ m, BlockInv (r m)) (ha : TransportAnswers r) (ht : BlockGetsTurns r)
    (hloop : ∀ m, n ≤ m → inPollLoop (r m)) (k : Nat) : ∃ m, k ≤ m ∧ testNext (r m) := by
  by_contra hno
  simp only [not_exists, not_and] at hno
  have leaves {m : Nat} (hm : n ≤ m) : ∃ m', m ≤ m' ∧ (r m').seq ≠ (r m).seq :=
    exists_seq_ne hr hi ha ht (by rcases hloop m hm with h | h <;> rw [h] <;> exact nofun)
  have hsent : ∃ m, n ≤ m ∧ k ≤ m ∧ (r m).seq = .transactionSent := by
    rcases hloop (max n k) (le_max_left n k) with h | h
    · exact ⟨_, le_max_left n k, le_max_right n k, h⟩
    · obtain ⟨m, hm, hne⟩ := leaves (le_max_left n k)
      have hn := (le_max_left n k).trans hm
      exact ⟨m, hn, (le_max_right n k).trans hm, (hloop m hn).resolve_right (h ▸ hne)⟩
  obtain ⟨m, hn, hk, hq⟩ := hsent
  obtain ⟨m', hm', hne⟩ := leaves hn
  exact hne (hq ▸ seq_eq_of_no_testNext hr (fun j hj => hloop j (hn.trans hj)) (fun j hj => hno j (hk.trans hj)) hq hm')

/-- From any state of a fair run outside IDLE the run comes to IDLE or nearer to it (R144). -/
theorem exists_distance_lt (hr : IsRun r) (hi : ∀ m, BlockInv (r m)) (ha : TransportAnswers r)
    (hc : ClockAdvances r) (ht : BlockGetsTurns r) (n : Nat) (hq : (r n).seq ≠ .idle) :
    ∃ m, n ≤ m ∧ ((r m).seq = .idle ∨ distance (r m).seq < distance (r n).seq) := by
  by_contra hstuck
  simp only [not_exists, not_and, not_or, not_lt] at hstuck
  have hdist {m : Nat} (hm : n ≤ m) := distance_eq_of_stuck hr hstuck hm
  by_cases hloop : inPollLoop (r n)
  · have hstay (m : Nat) (hm : n ≤ m) : inPollLoop (r m) := loop_of_distance_eq (hdist hm) hloop
    obtain ⟨m, hm, hend⟩ := hc n hstay (exists_testNext hr hi ha ht hstay)
    obtain ⟨t, hstep, hseq⟩ := hr.exists_step m
    have hout := hstay (m + 1) (Nat.le_succ_of_le hm)
    rw [inPollLoop, hseq] at hout
    rcases hend with hend | hend
    · simp [seq_of_expiryNext hend hstep] at hout
    · simp [seq_of_readyNext hend hstep] at hout
  · obtain ⟨m, hm, hne⟩ := exists_seq_ne hr hi ha ht hq
    exact hne (eq_of_distance_eq (hdist hm) hloop)

end

end Sys2Proof.Safety

section

open Sys2Proof Sys2Proof.Machine Sys2Proof.Safety

/-- Settles O56, by strong induction on the distance from IDLE. -/
theorem operationsEndUnderFairness : Obligations.OperationsEndUnderFairness := by
  intro r hr h0 ha hc ht n
  have hi := isRun_invariant hr (fun _ events samples h => blockInv_receives events samples h)
    (fun _ _ h hstep => blockInv_step h hstep) h0
  induction hd : distance (r n).seq using Nat.strong_induction_on generalizing n with
  | _ k ih =>
    by_cases hq : (r n).seq = .idle
    · exact ⟨n, le_rfl, hq⟩
    · obtain ⟨m, hm, hidle | hlt⟩ := exists_distance_lt hr hi ha hc ht n hq
      · exact ⟨m, hm, hidle⟩
      · obtain ⟨m', hm', hidle⟩ := ih _ (hd ▸ hlt) m rfl
        exact ⟨m', hm.trans hm', hidle⟩

end
